-- ==== Sys2Proof/Word.lean ====
section
/-! DEFINITION. The two words that cross the command port (00_scope.md R8); every other quantity is an unsigned bit vector
of the width its rule states (R10). -/

namespace Sys2Proof

/-- A command word and a response's data word (R59, R60): 32 bits. -/
abbrev Word32 := BitVec 32

/-- The response word `rsp[37:0]` (R60): 38 bits. -/
abbrev RspWord := BitVec 38

end Sys2Proof
end

