-- ==== Sys2Proof/Config.lean ====
section
/-! DEFINITION. What the spec fixes for the block (R8), the reset defaults of its configuration inputs (R9), and the
FREE VALUES: the inputs that the two outside agents choose, and the one register value the spec leaves undefined. -/

namespace Sys2Proof

/-- `TIMER_RANGE` (R8): the number of ticks between two wraps of `cnt`. -/
abbrev Config.timerRange : Nat := 65536

/-- `SCALE_SHIFT` (R8): the converter's fixed right shift. -/
abbrev Config.scaleShift : Nat := 16

/-- Reset default of `scale` (R9, R34). -/
abbrev Config.scaleDefault : BitVec 24 := 562

/-- Reset default of `dmin` (R9, R35). -/
abbrev Config.dminDefault : BitVec 16 := 2

/-- Reset default of `dmax` (R9, R36). -/
abbrev Config.dmaxDefault : BitVec 16 := 400

/-- Reset default of `deadline` (R9, R37). -/
abbrev Config.deadlineDefault : BitVec 16 := 2

/-- Reset default of `trig_ticks` (R9, R38). -/
abbrev Config.trigTicksDefault : BitVec 16 := 21

/-- FREE VALUE: the input `rst` that the host chooses in cycle `k` (R115, R144). Assumption 1. -/
opaque Config.envRst : Nat → Bool

/-- FREE VALUE: the input `echo_in` that the sensor chooses in cycle `k` (R115, R146; 93 item 10). Assumption 1. -/
opaque Config.envEcho : Nat → Bool

/-- FREE VALUE: the input `cmd_valid` that the host chooses in cycle `k` (R115, R144). Assumption 1. -/
opaque Config.envCmdValid : Nat → Bool

/-- FREE VALUE: the input `cmd` that the host chooses in cycle `k` (R115, R144). Assumption 1. -/
opaque Config.envCmd : Nat → BitVec 32

/-- FREE VALUE: `pre` after a cycle in which `pre` holds 1023, its largest 10-bit value, and the prescaler does not
tick. R45(c) rules such a state out of every run from reset, and R10, R120 define nothing for it. Assumption 5. -/
opaque Config.prePastEnd : BitVec 3 → BitVec 10

end Sys2Proof
end

