-- ==== Sys2Proof/Syntax.lean ====
section
/-! DEFINITION. The 17 commands of ETU-CMD version 1 (30_encoding.md R62), one constructor per row of the opcode table,
each with the operand its immediate format gives it (R61). -/

namespace Sys2Proof

/-- The edge of `set_capture_edge(Rising|Falling)` (R12): an operand, and the value of `armed` and `cap_edge`. -/
inductive Edge where
  | rising
  | falling
deriving DecidableEq, Repr

/-- A command. Operands are unsigned and used as they stand (R61). -/
inductive Instr where
  /-- NOP, 0x00, format Z (R86). -/
  | nop
  /-- CONFIGURE `div_sel`, 0x01, format I3 (R74). -/
  | configure (divSel : BitVec 3)
  /-- START, 0x02, format Z (R75). -/
  | start
  /-- STOP, 0x03, format Z (R76). -/
  | stop
  /-- SETEDGE `edge`, 0x04, format I1 (R79). -/
  | setEdge (edge : Edge)
  /-- POLLCAP, 0x05, format Z (R80). -/
  | pollCap
  /-- RDOVF, 0x06, format Z (R78). -/
  | rdOvf
  /-- RDCNT, 0x07, format Z (R77). -/
  | rdCnt
  /-- BEGIN, 0x08, format Z (R82). -/
  | begin
  /-- RDRESULT, 0x09, format Z (R83). -/
  | rdResult
  /-- CONVERT `raw24`, 0x0A, format I24 (R84). -/
  | convert (raw24 : BitVec 24)
  /-- SETSCALE `k`, 0x10, format I24 (R87). -/
  | setScale (k : BitVec 24)
  /-- SETMIN `d`, 0x11, format I16 (R88). -/
  | setMin (d : BitVec 16)
  /-- SETMAX `d`, 0x12, format I16 (R89). -/
  | setMax (d : BitVec 16)
  /-- SETDEADLINE `w`, 0x13, format I16 (R90). -/
  | setDeadline (w : BitVec 16)
  /-- SETTRIG `n_ticks`, 0x14, format I16 (R91). -/
  | setTrig (nTicks : BitVec 16)
  /-- RDREG `idx`, 0x15, format I5 (R92). -/
  | rdReg (idx : BitVec 5)
deriving DecidableEq, Repr

end Sys2Proof
end

