-- ==== Sys2Proof/Machine/State.lean ====
section
/-! DEFINITION. The 30 registers of the ETU (10_state.md R13), the ports (R115), the machine's state as plain data, and
its reset (R46). The ETU has no memory of any kind (R47). -/

namespace Sys2Proof.Machine

/-- The sequencer's state, MeasurementState (R12, R22). The codes 6 and 7 are unrepresentable, as R120 asks. -/
inductive MeasState where
  | idle
  | triggering
  | awaitingRisingEdge
  | awaitingFallingEdge
  | computing
  | timedOut
deriving DecidableEq, Repr

/-- The kind of the last result (R12, R31). -/
inductive ResultKind where
  | inRange
  | outOfRange
  | timeout
  | none
deriving DecidableEq, Repr

/-- A command's status (R67). The values 7 to 15 are never produced. -/
inductive Status where
  | ok
  | none
  | errIllegal
  | errBadArg
  | errBusy
  | errFault
  | errNotReady
deriving DecidableEq, Repr

/-- A response before it is packed into `rsp[37:0]` (R60). -/
structure Response where
  status : Status
  tag : BitVec 2
  data : Word32
deriving DecidableEq, Repr

/-- The whole architectural state of the ETU: 30 registers and no other storage (R13). -/
structure Registers where
  /-- R14, 16 bits: the free-running tick counter. -/
  cnt : BitVec 16
  /-- R15, 16 bits: the wrap counter, modulo 65536. -/
  ovf : BitVec 16
  /-- R16, 16 bits: `cnt` at the last capture. -/
  capTick : BitVec 16
  /-- R16, 16 bits: `ovf` at the last capture. -/
  capOvf : BitVec 16
  /-- R17, 16 bits: the tick count of the pulse window's start. -/
  startTick : BitVec 16
  /-- R17, 16 bits: the wrap count of the pulse window's start. -/
  startOvf : BitVec 16
  /-- R18, 16 bits: the tick count of the pulse window's end. -/
  endTick : BitVec 16
  /-- R18, 16 bits: the wrap count of the pulse window's end. -/
  endOvf : BitVec 16
  /-- R19, 32 bits: RawTicks of the last completed measurement. -/
  raw : BitVec 32
  /-- R20, 16 bits: the distance of the last completed measurement, in centimetres. -/
  resDist : BitVec 16
  /-- R22, 3 bits: where the sequencer is. -/
  state : MeasState
  /-- R24, 1 bit: the armed edge. -/
  armed : Edge
  /-- R25, 1 bit: a capture is pending. -/
  capNew : Bool
  /-- R26, 1 bit: the edge of the last capture. -/
  capEdge : Edge
  /-- R27, 1 bit: the timer counts. -/
  running : Bool
  /-- R28, 1 bit: a valid CONFIGURE has been accepted since reset. -/
  configured : Bool
  /-- R29, 1 bit: the sticky configuration fault. -/
  cfgFault : Bool
  /-- R30, 1 bit: a result waits to be fetched. -/
  resValid : Bool
  /-- R31, 2 bits: the kind of the last result. -/
  resKind : ResultKind
  /-- R32, 1 bit: the trigger output. -/
  trig : Bool
  /-- R33, 3 bits: the prescaler code. -/
  divSel : BitVec 3
  /-- R34, 24 bits: the conversion constant, Q0.16 centimetres per tick. -/
  scale : BitVec 24
  /-- R35, 16 bits: the least distance in range. -/
  dmin : BitVec 16
  /-- R36, 16 bits: the greatest distance in range. -/
  dmax : BitVec 16
  /-- R37, 16 bits: the timeout deadline, in wraps per awaiting state. -/
  deadline : BitVec 16
  /-- R38, 16 bits: the trigger pulse length, in ticks. -/
  trigTicks : BitVec 16
  /-- R41, 10 bits: the prescaler phase. -/
  pre : BitVec 10
  /-- R42, 1 bit: the previous sample of `echo_in`. -/
  echoQ : Bool
  /-- R43, 16 bits: ticks since the trigger pulse began. -/
  trigCnt : BitVec 16
  /-- R44, 16 bits: wraps since the awaiting state was entered. -/
  waitWraps : BitVec 16
deriving DecidableEq, Repr

/-- The input ports in one cycle (R115). -/
structure Inputs where
  rst : Bool
  echoIn : Bool
  cmdValid : Bool
  cmd : Word32
deriving DecidableEq, Repr

/-- The output ports in one cycle (R115). -/
structure Outputs where
  trigOut : Bool
  rspValid : Bool
  rsp : RspWord
  done : Bool
  capEvt : Bool
  ovfEvt : Bool
deriving DecidableEq, Repr

/-- The machine: the 30 registers, and three fields of the MODEL's own that stand for the ports (assumptions 1, 3):
the inputs the outside agents have already chosen for the coming cycles, the number of the coming cycle, and the
outputs of the cycle that ran last. -/
structure State where
  regs : Registers
  /-- The inputs of the coming cycles, the next cycle's first. Where the list is empty, they are free values. -/
  stimulus : List Inputs
  /-- The number of cycles executed; it selects the free inputs of the next one. -/
  cycle : Nat
  /-- The outputs of the last cycle executed. -/
  out : Outputs
deriving DecidableEq, Repr

/-- Faults: NONE. No operation stops the ETU: "Nothing traps, nothing hangs" (00_scope.md section 7), every
condition ends in a response word or in a result register (R121, R150), and the step is total (R120). The type has no
constructor, so nothing can raise one. -/
inductive Fault where
deriving DecidableEq, Repr

/-- Refusals. Every command of the table has its meaning, so none is raised. -/
inductive Refusal where
  /-- Raised by an arm of `exec` whose command has no meaning yet: there is none. Safe: the model only stops. -/
  | notModelled (mnemonic : String)
deriving DecidableEq, Repr

/-- The reset value of every register (R46's table). -/
def Registers.reset : Registers where
  cnt := 0
  ovf := 0
  capTick := 0
  capOvf := 0
  startTick := 0
  startOvf := 0
  endTick := 0
  endOvf := 0
  raw := 0
  resDist := 0
  state := .idle
  armed := .rising
  capNew := false
  capEdge := .rising
  running := false
  configured := false
  cfgFault := false
  resValid := false
  resKind := .none
  trig := false
  divSel := 0
  scale := Config.scaleDefault
  dmin := Config.dminDefault
  dmax := Config.dmaxDefault
  deadline := Config.deadlineDefault
  trigTicks := Config.trigTicksDefault
  pre := 0
  echoQ := false
  trigCnt := 0
  waitWraps := 0

/-- Output ports that carry nothing. DESIGN CHOICE (assumption 3) where it stands for the cycle before reset's end. -/
def Outputs.quiet : Outputs where
  trigOut := false
  rspValid := false
  rsp := 0
  done := false
  capEvt := false
  ovfEvt := false

/-- The machine right after reset (R152): every register at R46's value, no input chosen yet. -/
def State.reset : State where
  regs := Registers.reset
  stimulus := []
  cycle := 0
  out := Outputs.quiet

end Sys2Proof.Machine
end

