-- ==== Sys2Proof/Machine/Converter.lean ====
section
/-! DEFINITION. RawTicks (R105) and the fixed-point distance converter (45_distance_converter.md). Arithmetic is exact
over the naturals and narrowed once, at the end (R10, R112). -/

namespace Sys2Proof.Machine

/-- The 32-bit extended timestamp `ovf * 65536 + tick` (R40, R105). -/
def timestamp (ovf tick : BitVec 16) : Nat := ovf.toNat * Config.timerRange + tick.toNat

/-- RawTicks (R105): the difference of two extended timestamps, modulo 2^32. -/
def rawTicks (startOvf startTick endOvf endTick : BitVec 16) : BitVec 32 :=
  BitVec.ofInt 32 ((timestamp endOvf endTick : Int) - (timestamp startOvf startTick : Int))

/-- The converter's `d` (R109, R110): centimetres, rounded to nearest, an exact half rounded up. -/
def distanceCm (raw scale : Nat) : Nat := (raw * scale + 32768) >>> Config.scaleShift

/-- `convert` (R109): the range check is inclusive and compares the full-width `d` (R111). -/
def convert (raw : BitVec 32) (scale : BitVec 24) (dmin dmax : BitVec 16) : ResultKind × BitVec 16 :=
  if dmin.toNat ≤ distanceCm raw.toNat scale.toNat ∧ distanceCm raw.toNat scale.toNat ≤ dmax.toNat then
    (.inRange, BitVec.ofNat 16 (distanceCm raw.toNat scale.toNat))
  else
    (.outOfRange, 0)

end Sys2Proof.Machine
end

