-- ==== Sys2Proof/WellFormed.lean ====
section
/-! DEFINITION. Which commands carry an operand value that their rule does not refuse: column 6 of R135's table and the
reserved operand values of R64. An ill-formed command is still a command: it encodes, decodes and runs, and its rule
answers ERR_BADARG (R123(b)); no statement about decoding or about `step` assumes well-formedness. -/

namespace Sys2Proof

/-- `div_sel` is one of the divider codes 1 to 5 (R33). -/
def wfDivSel (d : BitVec 3) : Bool := decide (1 ≤ d.toNat ∧ d.toNat ≤ 5)

/-- A deadline or trigger length is at least 1 (R37, R38). -/
def wfPositive (w : BitVec 16) : Bool := decide (1 ≤ w.toNat)

/-- A register index is one of the 15 assigned ones (R49). -/
def wfIndex (idx : BitVec 5) : Bool := decide (idx.toNat ≤ 14)

/-- The operand of the command passes R135's check 6. -/
def Instr.wellFormed : Instr → Bool
  | .nop => true
  | .configure d => wfDivSel d
  | .start => true
  | .stop => true
  | .setEdge _ => true
  | .pollCap => true
  | .rdOvf => true
  | .rdCnt => true
  | .begin => true
  | .rdResult => true
  | .convert _ => true
  | .setScale _ => true
  | .setMin _ => true
  | .setMax _ => true
  | .setDeadline w => wfPositive w
  | .setTrig w => wfPositive w
  | .rdReg idx => wfIndex idx

end Sys2Proof
end

