-- ==== Sys2Proof/Decode.lean ====
section
/-! DEFINITION. The command word (30_encoding.md): `cmd[31:24]` is the opcode, `cmd[23:0]` the immediate field (R59).
The decoder is total on the 2^32 words and names the two ways a word is no command (R63, R64); the encoder follows. -/

namespace Sys2Proof

/-- The six immediate formats (R61). -/
inductive Format where
  | z | i1 | i3 | i5 | i16 | i24
deriving DecidableEq, Repr

/-- How many low bits of the immediate field are the operand (R61). -/
def Format.operandBits : Format → Nat
  | .z => 0
  | .i1 => 1
  | .i3 => 3
  | .i5 => 5
  | .i16 => 16
  | .i24 => 24

/-- What the decoder reads from a word: a command, or by name the reason why it is none. -/
inductive Decoded where
  /-- A legal opcode with every reserved bit 0. -/
  | command (i : Instr)
  /-- The opcode is not in the table of R62 (R63): answered ERR_ILLEGAL. -/
  | illegalOpcode
  /-- The opcode is legal and a reserved immediate bit is 1 (R64): answered ERR_BADARG. -/
  | reservedBits
deriving DecidableEq, Repr

/-- `cmd[31:24]` (R59). -/
def opcodeField (w : Word32) : BitVec 8 := w.extractLsb' 24 8

/-- `cmd[23:0]` (R59). -/
def immField (w : Word32) : BitVec 24 := w.extractLsb' 0 24

/-- The bits of the immediate above the operand are all 0 (R61, R64). -/
def reservedZero (f : Format) (imm : BitVec 24) : Bool := imm >>> f.operandBits == 0

/-- Edge encoding: Rising = 0, Falling = 1 (R12). -/
def edgeOfBit (b : BitVec 1) : Edge := if b = 0 then .rising else .falling

/-- Edge encoding: Rising = 0, Falling = 1 (R12). -/
def edgeBit : Edge → BitVec 1
  | .rising => 0
  | .falling => 1

/-- The opcode map (R62): for each assigned opcode its format and the command its operand makes. -/
def opcodeRow (op : BitVec 8) : Option (Format × (BitVec 24 → Instr)) :=
  match op.toNat with
  | 0x00 => some (.z, fun _ => .nop)
  | 0x01 => some (.i3, fun imm => .configure (imm.extractLsb' 0 3))
  | 0x02 => some (.z, fun _ => .start)
  | 0x03 => some (.z, fun _ => .stop)
  | 0x04 => some (.i1, fun imm => .setEdge (edgeOfBit (imm.extractLsb' 0 1)))
  | 0x05 => some (.z, fun _ => .pollCap)
  | 0x06 => some (.z, fun _ => .rdOvf)
  | 0x07 => some (.z, fun _ => .rdCnt)
  | 0x08 => some (.z, fun _ => .begin)
  | 0x09 => some (.z, fun _ => .rdResult)
  | 0x0A => some (.i24, fun imm => .convert imm)
  | 0x10 => some (.i24, fun imm => .setScale imm)
  | 0x11 => some (.i16, fun imm => .setMin (imm.extractLsb' 0 16))
  | 0x12 => some (.i16, fun imm => .setMax (imm.extractLsb' 0 16))
  | 0x13 => some (.i16, fun imm => .setDeadline (imm.extractLsb' 0 16))
  | 0x14 => some (.i16, fun imm => .setTrig (imm.extractLsb' 0 16))
  | 0x15 => some (.i5, fun imm => .rdReg (imm.extractLsb' 0 5))
  | _ => none

/-- Decoding (R62): find the row by opcode alone, then check the reserved bits of that row's format (R135 checks 1, 2).
Every word is decoded the same way in every state (R66). -/
def decode (w : Word32) : Decoded :=
  match opcodeRow (opcodeField w) with
  | none => .illegalOpcode
  | some (f, build) =>
    if reservedZero f (immField w) then .command (build (immField w)) else .reservedBits

/-- The opcode numbers of R62. -/
def Instr.opcode : Instr → BitVec 8
  | .nop => 0x00
  | .configure _ => 0x01
  | .start => 0x02
  | .stop => 0x03
  | .setEdge _ => 0x04
  | .pollCap => 0x05
  | .rdOvf => 0x06
  | .rdCnt => 0x07
  | .begin => 0x08
  | .rdResult => 0x09
  | .convert _ => 0x0A
  | .setScale _ => 0x10
  | .setMin _ => 0x11
  | .setMax _ => 0x12
  | .setDeadline _ => 0x13
  | .setTrig _ => 0x14
  | .rdReg _ => 0x15

/-- The formats of R62. -/
def Instr.format : Instr → Format
  | .nop => .z
  | .configure _ => .i3
  | .start => .z
  | .stop => .z
  | .setEdge _ => .i1
  | .pollCap => .z
  | .rdOvf => .z
  | .rdCnt => .z
  | .begin => .z
  | .rdResult => .z
  | .convert _ => .i24
  | .setScale _ => .i24
  | .setMin _ => .i16
  | .setMax _ => .i16
  | .setDeadline _ => .i16
  | .setTrig _ => .i16
  | .rdReg _ => .i5

/-- The operand in the low bits of the immediate field, the reserved bits 0 (R61). -/
def Instr.operand : Instr → BitVec 24
  | .nop => 0
  | .configure d => d.setWidth 24
  | .start => 0
  | .stop => 0
  | .setEdge e => (edgeBit e).setWidth 24
  | .pollCap => 0
  | .rdOvf => 0
  | .rdCnt => 0
  | .begin => 0
  | .rdResult => 0
  | .convert r => r
  | .setScale k => k
  | .setMin d => d.setWidth 24
  | .setMax d => d.setWidth 24
  | .setDeadline w => w.setWidth 24
  | .setTrig n => n.setWidth 24
  | .rdReg idx => idx.setWidth 24

/-- Encoding: `(opcode << 24) | operand` (R70). -/
def encode (i : Instr) : BitVec 32 := i.opcode ++ i.operand

/-- The command the decoder reads from a table word of `nbits` bits, the bits above being 0. -/
def decodeTableWord (nbits w : Nat) : Option Instr :=
  match decode (BitVec.ofNat 32 (w % 2 ^ nbits)) with
  | .command i => some i
  | .illegalOpcode => none
  | .reservedBits => none

end Sys2Proof
end

