-- ==== Sys2Proof/Machine/Operands.lean ====
section
/-! DEFINITION. The numbers that values take where they cross the command port (R12, R60, R67, R68), the legality of
operands (R135, check 6), and the read views of RDREG (R39, R40, R49). -/

namespace Sys2Proof.Machine

/-- A flag as one bit. -/
def flagBit (b : Bool) : BitVec 1 := BitVec.ofBool b

/-- MeasurementState's codes (R12, R22). -/
def measStateCode : MeasState → BitVec 3
  | .idle => 0
  | .triggering => 1
  | .awaitingRisingEdge => 2
  | .awaitingFallingEdge => 3
  | .computing => 4
  | .timedOut => 5

/-- The result kinds' codes (R12, R31). -/
def resultKindCode : ResultKind → BitVec 2
  | .inRange => 0
  | .outOfRange => 1
  | .timeout => 2
  | .none => 3

/-- The statuses' codes (R67). -/
def statusCode : Status → BitVec 4
  | .ok => 0
  | .none => 1
  | .errIllegal => 2
  | .errBadArg => 3
  | .errBusy => 4
  | .errFault => 5
  | .errNotReady => 6

/-- The response word: status in bits 37 to 34, tag in 33 to 32, data in 31 to 0 (R60). -/
def responseWord (r : Response) : RspWord := statusCode r.status ++ (r.tag ++ r.data)

/-- `{0, edge}`: the tag of POLLCAP's answer (R68, R80). -/
def edgeTag (e : Edge) : BitVec 2 := (edgeBit e).setWidth 2

/-- `zext_32` of a 16-bit register (R10). -/
def zext32 (v : BitVec 16) : BitVec 32 := v.setWidth 32

/-- `DIV` (R8, R94): clock cycles per tick for a divider code; the codes 0, 6 and 7 have no entry. -/
def divCycles (d : BitVec 3) : Option Nat :=
  match d.toNat with
  | 1 => some 1
  | 2 => some 8
  | 3 => some 64
  | 4 => some 256
  | 5 => some 1024
  | _ => none

/-- CONFIGURE's operand check: `div_sel` is in {1, 2, 3, 4, 5} (R74). -/
def divSelLegal (d : BitVec 3) : Bool := (divCycles d).isSome

/-- The operand check of SETDEADLINE and SETTRIG: the value is not 0 (R90, R91). -/
def countLegal (w : BitVec 16) : Bool := w != 0

/-- STATUS (R39): the flags, bit 13 first, under 18 zero bits. -/
def statusView (s : Registers) : BitVec 32 :=
  (0 : BitVec 18) ++ (flagBit s.trig ++ (flagBit s.echoQ ++ (resultKindCode s.resKind ++ (flagBit s.resValid ++
    (edgeBit s.capEdge ++ (flagBit s.capNew ++ (flagBit s.cfgFault ++ (flagBit s.configured ++
      (flagBit s.running ++ (edgeBit s.armed ++ measStateCode s.state))))))))))

/-- RESULT (R40): bit 31 `res_valid`, bits 17 to 16 `res_kind`, bits 15 to 0 `res_dist`, the rest 0. -/
def resultView (s : Registers) : BitVec 32 :=
  flagBit s.resValid ++ ((0 : BitVec 13) ++ (resultKindCode s.resKind ++ s.resDist))

/-- The register index map of RDREG (R49); `none` at the reserved indices 15 to 31. -/
def view (s : Registers) (idx : BitVec 5) : Option (BitVec 32) :=
  match idx.toNat with
  | 0 => some (zext32 s.cnt)
  | 1 => some (zext32 s.ovf)
  | 2 => some (s.capOvf ++ s.capTick)
  | 3 => some (s.startOvf ++ s.startTick)
  | 4 => some (s.endOvf ++ s.endTick)
  | 5 => some s.raw
  | 6 => some (resultView s)
  | 7 => some (statusView s)
  | 8 => some (s.divSel.setWidth 32)
  | 9 => some (s.scale.setWidth 32)
  | 10 => some (zext32 s.dmin)
  | 11 => some (zext32 s.dmax)
  | 12 => some (zext32 s.deadline)
  | 13 => some (zext32 s.trigTicks)
  | 14 => some (s.ovf ++ s.cnt)
  | _ => none

end Sys2Proof.Machine
end

