-- ==== Sys2Proof/Machine/Flags.lean ====
section
/-! DEFINITION. The derived signals of R94: functions of the state at the start of the cycle and of `echo_in`. They
select the autonomous operations (R93) and are not registers. -/

namespace Sys2Proof.Machine

/-- `busy`: a measurement is in progress (R12, R94). TimedOut is not busy (R124). -/
def busy (s : Registers) : Bool :=
  match s.state with
  | .idle => false
  | .triggering => true
  | .awaitingRisingEdge => true
  | .awaitingFallingEdge => true
  | .computing => true
  | .timedOut => false

/-- `want` (R94): the edge awaited; `none` outside the two awaiting states. -/
def want (s : Registers) : Option Edge :=
  match s.state with
  | .awaitingRisingEdge => some .rising
  | .awaitingFallingEdge => some .falling
  | .idle => none
  | .triggering => none
  | .computing => none
  | .timedOut => none

/-- `awaiting` (R94). -/
def awaiting (s : Registers) : Bool := (want s).isSome

/-- `tick` (R94). Where `DIV(div_sel)` has no entry there is no tick: the treatment R120 and 93 item 4 give that
unreachable pattern (assumption 4). -/
def tick (s : Registers) : Bool :=
  match divCycles s.divSel with
  | some d => s.running && decide (s.pre.toNat = d - 1)
  | none => false

/-- `wrap` (R94): the tick that takes `cnt` from 65535 to 0. -/
def wrap (s : Registers) : Bool := tick s && decide (s.cnt.toNat = Config.timerRange - 1)

/-- `rise` (R94). -/
def rise (s : Registers) (echoIn : Bool) : Bool := echoIn && !s.echoQ

/-- `fall` (R94). -/
def fall (s : Registers) (echoIn : Bool) : Bool := !echoIn && s.echoQ

/-- `hit` (R94): a transition of the armed edge. -/
def hit (s : Registers) (echoIn : Bool) : Bool :=
  match s.armed with
  | .rising => rise s echoIn
  | .falling => fall s echoIn

/-- `accept` (R94): a pending event of the awaited edge. -/
def accept (s : Registers) : Bool :=
  match want s with
  | some e => s.capNew && decide (s.capEdge = e)
  | none => false

/-- `discard` (R94): a pending event of the other edge. -/
def discard (s : Registers) : Bool :=
  match want s with
  | some e => s.capNew && decide (s.capEdge ≠ e)
  | none => false

/-- `expire` (R94): the `deadline`-th wrap of the awaiting state, with no event accepted in the same cycle. -/
def expire (s : Registers) : Bool :=
  awaiting s && !accept s && wrap s && decide (s.deadline.toNat ≤ s.waitWraps.toNat + 1)

end Sys2Proof.Machine
end

