-- ==== Sys2Proof/Machine/Autonomous.lean ====
section
/-! DEFINITION. The ten autonomous operations (44_autonomous_operations.md R93). Each takes the registers `s` at the
start of the cycle and the next-cycle registers `n` built so far, tests its firing condition on `s` alone (R11), and
writes its registers into `n`. -/

namespace Sys2Proof.Machine

/-- `pre` in a running cycle without a tick (R95). Past the register's largest value, a pattern that R45(c) rules out,
it is a free value (assumption 5). -/
def preAdvanced (s : Registers) : BitVec 10 :=
  if s.pre.toNat + 1 < 1024 then s.pre + 1 else Config.prePastEnd s.divSel

/-- TICK (R95). -/
def tickOp (s n : Registers) : Registers :=
  if s.running then
    if tick s then { n with pre := 0, cnt := s.cnt + 1 } else { n with pre := preAdvanced s }
  else n

/-- WRAP (R96). -/
def wrapOp (s n : Registers) : Registers :=
  if wrap s then { n with ovf := s.ovf + 1 } else n

/-- CAPTURE (R97): samples `echo_in` in every cycle, latches the pair on the armed edge. -/
def captureOp (s : Registers) (echoIn : Bool) (n : Registers) : Registers :=
  if hit s echoIn then
    { n with echoQ := echoIn, capTick := s.cnt, capOvf := s.ovf, capEdge := s.armed, capNew := true }
  else { n with echoQ := echoIn }

/-- TRIGSTEP (R98): the pulse ends at the `trig_ticks`-th tick. -/
def trigStepOp (s n : Registers) : Registers :=
  if s.state = .triggering ∧ tick s = true then
    if s.trigTicks.toNat ≤ s.trigCnt.toNat + 1 then
      { n with trig := false, state := .awaitingRisingEdge, waitWraps := 0 }
    else { n with trigCnt := s.trigCnt + 1 }
  else n

/-- ACCEPT_RISE (R99). -/
def acceptRiseOp (s n : Registers) : Registers :=
  if s.state = .awaitingRisingEdge ∧ accept s = true then
    { n with startTick := s.capTick, startOvf := s.capOvf, capNew := false, armed := .falling,
             state := .awaitingFallingEdge, waitWraps := 0 }
  else n

/-- ACCEPT_FALL (R100). -/
def acceptFallOp (s n : Registers) : Registers :=
  if s.state = .awaitingFallingEdge ∧ accept s = true then
    { n with endTick := s.capTick, endOvf := s.capOvf, capNew := false, armed := .rising,
             state := .computing, waitWraps := 0 }
  else n

/-- DISCARD (R101). -/
def discardOp (s n : Registers) : Registers :=
  if discard s then { n with capNew := false } else n

/-- WAITWRAP (R102). -/
def waitWrapOp (s n : Registers) : Registers :=
  if awaiting s && !accept s && wrap s && !expire s then { n with waitWraps := s.waitWraps + 1 } else n

/-- Entry to TimedOut, exactly the registers R138 lists (R103). -/
def enterTimedOut (n : Registers) : Registers :=
  { n with state := .timedOut, resKind := .timeout, resDist := 0, resValid := true, armed := .rising }

/-- TIMEOUT (R103). -/
def timeoutOp (s n : Registers) : Registers :=
  if expire s then enterTimedOut n else n

/-- COMPUTE (R104). -/
def computeOp (s n : Registers) : Registers :=
  if s.state = .computing then
    { n with raw := rawTicks s.startOvf s.startTick s.endOvf s.endTick,
             resKind := (convert (rawTicks s.startOvf s.startTick s.endOvf s.endTick) s.scale s.dmin s.dmax).1,
             resDist := (convert (rawTicks s.startOvf s.startTick s.endOvf s.endTick) s.scale s.dmin s.dmax).2,
             resValid := true, state := .idle }
  else n

/-- Phase 1 of R117: the timer. -/
def timerPhase (s n : Registers) : Registers := wrapOp s (tickOp s n)

/-- Phase 2 of R117: the sequencer. At most one state's operations fire in a cycle (R93). -/
def sequencerPhase (s n : Registers) : Registers :=
  computeOp s (timeoutOp s (waitWrapOp s (discardOp s (acceptFallOp s (acceptRiseOp s (trigStepOp s n))))))

end Sys2Proof.Machine
end

