-- ==== Sys2Proof/Machine/Ops.lean ====
section
/-! DEFINITION. The operations every command shares (R73): its effect as a response and a set of register writes, the
checks of R135 in their fixed order, REJECTING a command (what the ETU has in the place of taking an exception: R121,
R137), and the clock cycle that puts the commands and the autonomous operations together (R117, R118). -/

namespace Sys2Proof.Machine

/-- What a command contributes to its cycle (R117's `exec_command`): the response, a function of the registers at the
start of the cycle and of the command alone (R60); its register writes, applied in phase 3; and whether it is a BEGIN
that was accepted, which clears `cap_new` in phase 5. -/
structure Effect where
  response : Response
  write : Registers → Registers
  dropCapture : Bool

/-- `respond(status, tag, data)` with no register written. -/
def answer (status : Status) (tag : BitVec 2) (data : BitVec 32) : Effect where
  response := { status := status, tag := tag, data := data }
  write := fun n => n
  dropCapture := false

/-- `reject(status)` (R11, R137): the status, tag 0, data 0, and no register written. -/
def reject (status : Status) : Effect := answer status 0 0

/-- `respond(OK, tag 0, data 0)` with register writes. -/
def done (write : Registers → Registers) : Effect where
  response := { status := .ok, tag := 0, data := 0 }
  write := write
  dropCapture := false

/-- Check 3 of R135: not busy, else ERR_BUSY (R124). -/
def ifNotBusy (s : Registers) (e : Effect) : Effect := if busy s then reject .errBusy else e

/-- Check 4 of R135: `cfg_fault` = 0, else ERR_FAULT (R125). -/
def ifNoFault (s : Registers) (e : Effect) : Effect := if s.cfgFault then reject .errFault else e

/-- Check 5 of R135: ready, else ERR_NOTREADY (R126). -/
def ifReady (ready : Bool) (e : Effect) : Effect := if ready then e else reject .errNotReady

/-- Check 6 of R135: a legal operand, else ERR_BADARG (R123(b)). -/
def ifLegal (legal : Bool) (e : Effect) : Effect := if legal then e else reject .errBadArg

/-- A command's register writes, phase 3 of R117; none in a cycle without a command. -/
def commandPhase (e : Option Effect) (n : Registers) : Registers :=
  match e with
  | some e => e.write n
  | none => n

/-- Phase 5 of R117: an accepted BEGIN discards a pending capture. -/
def dropPhase (e : Option Effect) (n : Registers) : Registers :=
  match e with
  | some e => if e.dropCapture then { n with capNew := false } else n
  | none => n

/-- The registers after a cycle with `rst` = 0 (R117): phases 1 to 5, a later phase's write winning (R118), each phase
reading the registers `s` at the start of the cycle. -/
def cycleRegs (s : Registers) (echoIn : Bool) (e : Option Effect) : Registers :=
  dropPhase e (captureOp s echoIn (commandPhase e (sequencerPhase s (timerPhase s s))))

/-- The registers after a cycle in which no command is executed: the autonomous operations alone (R69, R93). -/
def autonomous (s : Registers) (echoIn : Bool) : Registers := cycleRegs s echoIn none

/-- `rsp` (R116): the response word of the command executed, else 0. -/
def rspPort (e : Option Effect) : BitVec 38 :=
  match e with
  | some e => responseWord e.response
  | none => 0

/-- The outputs of a cycle with `rst` = 0 (R116). -/
def cycleOutputs (s : Registers) (e : Option Effect) : Outputs where
  trigOut := s.trig
  rspValid := e.isSome
  rsp := rspPort e
  done := s.resValid
  capEvt := s.capNew
  ovfEvt := wrap s

/-- The outputs of a cycle with `rst` = 1 (R116, R151): the levels still show the old registers. -/
def resetOutputs (s : Registers) : Outputs where
  trigOut := s.trig
  rspValid := false
  rsp := 0
  done := s.resValid
  capEvt := s.capNew
  ovfEvt := false

/-- The inputs of the coming cycle: what the outside agents have already chosen, else free values (assumption 1). -/
def State.inputs (s : State) : Inputs :=
  match s.stimulus with
  | i :: _ => i
  | [] => { rst := Config.envRst s.cycle, echoIn := Config.envEcho s.cycle,
            cmdValid := Config.envCmdValid s.cycle, cmd := Config.envCmd s.cycle }

/-- One clock cycle is over: the registers and outputs are these, and the next inputs stand first. -/
def State.advance (s : State) (regs : Registers) (out : Outputs) : State where
  regs := regs
  stimulus := s.stimulus.tail
  cycle := s.cycle + 1
  out := out

/-- A cycle with `rst` = 0, with a command's effect or without a command (R117). -/
def runCycle (s : State) (e : Option Effect) : Host.Outcome State Fault Refusal :=
  .next (s.advance (cycleRegs s.regs s.inputs.echoIn e) (cycleOutputs s.regs e))

/-- The cycle in which a command is executed (R73). -/
def commandCycle (s : State) (e : Effect) : Host.Outcome State Fault Refusal := runCycle s (some e)

/-- The cycle of a word with an illegal opcode (R63, R122). -/
def illegalCycle (s : State) : Host.Outcome State Fault Refusal := commandCycle s (reject .errIllegal)

/-- The cycle of a word with a legal opcode and a reserved immediate bit set (R64, R123(a)). -/
def reservedCycle (s : State) : Host.Outcome State Fault Refusal := commandCycle s (reject .errBadArg)

/-- A cycle with `rst` = 0 and `cmd_valid` = 0 (R69). -/
def idleCycle (s : State) : Host.Outcome State Fault Refusal := runCycle s none

/-- A cycle with `rst` = 1 (R151): every register takes its reset value, nothing else happens. -/
def resetCycle (s : State) : Host.Outcome State Fault Refusal :=
  .next (s.advance Registers.reset (resetOutputs s.regs))

/-- What the command port presents in a cycle. -/
inductive Presented where
  /-- `rst` = 1: reset wins over everything (R151). -/
  | reset
  /-- `cmd_valid` = 0: the value of `cmd` is ignored (R69). -/
  | nothing
  /-- `cmd_valid` = 1: what the word decodes to. -/
  | word (d : Decoded)
deriving DecidableEq, Repr

/-- Reading the input ports of the coming cycle (R115, R117). -/
def presented (i : Inputs) : Presented :=
  if i.rst then .reset else if i.cmdValid then .word (decode i.cmd) else .nothing

/-- The machine with this word on the command port in the coming cycle and `rst` = 0. `echo_in` is what had been chosen
for that cycle, or the level sampled last, which is no transition (assumption 7). -/
def State.presenting (s : State) (cmd : BitVec 32) : State :=
  { s with stimulus :=
      { rst := false
        echoIn := match s.stimulus with
          | i :: _ => i.echoIn
          | [] => s.regs.echoQ
        cmdValid := true
        cmd := cmd } :: s.stimulus.tail }

end Sys2Proof.Machine
end

