-- ==== Sys2Proof/Machine/Capture.lean ====
section
/-! DEFINITION. The capture commands (41_capture_commands.md): SETEDGE, POLLCAP. -/

namespace Sys2Proof.Machine

/-- SETEDGE (R79): the host owns `armed` while not busy (R81). -/
def setEdgeEffect (edge : Edge) (s : Registers) : Effect := ifNotBusy s (done (fun n => { n with armed := edge }))

def execSetEdge (edge : Edge) (s : State) : Host.Outcome State Fault Refusal :=
  commandCycle s (setEdgeEffect edge s.regs)

/-- POLLCAP's answer with an event pending (R80): the event, and `cap_new` cleared in phase 3, which CAPTURE's set in
phase 4 overrides (R118). -/
def capturedEvent (s : Registers) : Effect where
  response := { status := .ok, tag := edgeTag s.capEdge, data := s.capOvf ++ s.capTick }
  write := fun n => { n with capNew := false }
  dropCapture := false

/-- POLLCAP (R80). -/
def pollCapEffect (s : Registers) : Effect :=
  ifNotBusy s (if s.capNew then capturedEvent s else reject .none)

def execPollCap (s : State) : Host.Outcome State Fault Refusal := commandCycle s (pollCapEffect s.regs)

end Sys2Proof.Machine
end

