-- ==== Sys2Proof/Machine/ConfigRead.lean ====
section
/-! DEFINITION. The configuration-input and register-read commands (43_config_read_commands.md): NOP, SETSCALE, SETMIN,
SETMAX, SETDEADLINE, SETTRIG, RDREG. -/

namespace Sys2Proof.Machine

/-- NOP (R86): answered in every state, unlike an idle port. -/
def execNop (s : State) : Host.Outcome State Fault Refusal := commandCycle s (answer .ok 0 0)

/-- SETSCALE (R87): every value legal. -/
def setScaleEffect (k : BitVec 24) (s : Registers) : Effect := ifNotBusy s (done (fun n => { n with scale := k }))

def execSetScale (k : BitVec 24) (s : State) : Host.Outcome State Fault Refusal :=
  commandCycle s (setScaleEffect k s.regs)

/-- SETMIN (R88): every value legal. -/
def setMinEffect (d : BitVec 16) (s : Registers) : Effect := ifNotBusy s (done (fun n => { n with dmin := d }))

def execSetMin (d : BitVec 16) (s : State) : Host.Outcome State Fault Refusal :=
  commandCycle s (setMinEffect d s.regs)

/-- SETMAX (R89): every value legal, also one below `dmin`. -/
def setMaxEffect (d : BitVec 16) (s : Registers) : Effect := ifNotBusy s (done (fun n => { n with dmax := d }))

def execSetMax (d : BitVec 16) (s : State) : Host.Outcome State Fault Refusal :=
  commandCycle s (setMaxEffect d s.regs)

/-- SETDEADLINE (R90): 0 is refused. -/
def setDeadlineEffect (w : BitVec 16) (s : Registers) : Effect :=
  ifNotBusy s (ifLegal (countLegal w) (done (fun n => { n with deadline := w })))

def execSetDeadline (w : BitVec 16) (s : State) : Host.Outcome State Fault Refusal :=
  commandCycle s (setDeadlineEffect w s.regs)

/-- SETTRIG (R91): 0 is refused. -/
def setTrigEffect (nTicks : BitVec 16) (s : Registers) : Effect :=
  ifNotBusy s (ifLegal (countLegal nTicks) (done (fun n => { n with trigTicks := nTicks })))

def execSetTrig (nTicks : BitVec 16) (s : State) : Host.Outcome State Fault Refusal :=
  commandCycle s (setTrigEffect nTicks s.regs)

/-- RDREG (R92): one register or view by index, no side effect; the indices 15 to 31 are refused. -/
def rdRegEffect (idx : BitVec 5) (s : Registers) : Effect :=
  match view s idx with
  | some v => answer .ok 0 v
  | none => reject .errBadArg

def execRdReg (idx : BitVec 5) (s : State) : Host.Outcome State Fault Refusal :=
  commandCycle s (rdRegEffect idx s.regs)

end Sys2Proof.Machine
end

