-- ==== Sys2Proof/Machine/Measurement.lean ====
section
/-! DEFINITION. The measurement commands (42_measurement_commands.md): BEGIN, RDRESULT, CONVERT. -/

namespace Sys2Proof.Machine

/-- The registers an accepted BEGIN writes in phase 3 (R82). -/
def clearedForBegin (n : Registers) : Registers :=
  { n with state := .triggering, trig := true, trigCnt := 0, armed := .rising, waitWraps := 0,
           startTick := 0, startOvf := 0, endTick := 0, endOvf := 0, raw := 0,
           resValid := false, resKind := .none, resDist := 0, capNew := false }

/-- An accepted BEGIN: its clear of `cap_new` wins over CAPTURE's set, in phase 5 (R82(c), R118). -/
def acceptedBegin : Effect where
  response := { status := .ok, tag := 0, data := 0 }
  write := clearedForBegin
  dropCapture := true

/-- BEGIN (R82): accepted in Idle and in TimedOut (R140). -/
def beginEffect (s : Registers) : Effect :=
  ifNotBusy s (ifNoFault s (ifReady (s.configured && s.running) acceptedBegin))

def execBegin (s : State) : Host.Outcome State Fault Refusal := commandCycle s (beginEffect s.regs)

/-- The hand-over of a result (R83): the kind and the distance, and `res_valid` cleared. -/
def fetchedResult (s : Registers) : Effect where
  response := { status := .ok, tag := resultKindCode s.resKind, data := zext32 s.resDist }
  write := fun n => { n with resValid := false }
  dropCapture := false

/-- RDRESULT (R83): accepted in every state. -/
def rdResultEffect (s : Registers) : Effect := if s.resValid then fetchedResult s else reject .none

def execRdResult (s : State) : Host.Outcome State Fault Refusal := commandCycle s (rdResultEffect s.regs)

/-- CONVERT (R84): the converter by itself, on a 24-bit tick count. -/
def convertEffect (raw24 : BitVec 24) (s : Registers) : Effect :=
  answer .ok (resultKindCode (convert (raw24.setWidth 32) s.scale s.dmin s.dmax).1)
    (zext32 (convert (raw24.setWidth 32) s.scale s.dmin s.dmax).2)

def execConvert (raw24 : BitVec 24) (s : State) : Host.Outcome State Fault Refusal :=
  commandCycle s (convertEffect raw24 s.regs)

end Sys2Proof.Machine
end

