-- ==== Sys2Proof/Machine/Timer.lean ====
section
/-! DEFINITION. The timer driver commands (40_timer_commands.md): CONFIGURE, START, STOP, RDCNT, RDOVF. The reserved-bit
check of each command is made by the decoder (R135, check 2). -/

namespace Sys2Proof.Machine

/-- An invalid divider code (R74(a), R130, R139): ERR_BADARG, and the sticky `cfg_fault`. -/
def configFault : Effect where
  response := { status := .errBadArg, tag := 0, data := 0 }
  write := fun n => { n with cfgFault := true }
  dropCapture := false

/-- CONFIGURE (R74). -/
def configureEffect (divSel : BitVec 3) (s : Registers) : Effect :=
  ifNotBusy s (ifNoFault s
    (if divSelLegal divSel then done (fun n => { n with divSel := divSel, configured := true, pre := 0 })
     else configFault))

def execConfigure (divSel : BitVec 3) (s : State) : Host.Outcome State Fault Refusal :=
  commandCycle s (configureEffect divSel s.regs)

/-- START (R75). -/
def startEffect (s : Registers) : Effect :=
  ifNotBusy s (ifNoFault s (ifReady s.configured (done (fun n => { n with running := true }))))

def execStart (s : State) : Host.Outcome State Fault Refusal := commandCycle s (startEffect s.regs)

/-- STOP (R76): not blocked by `cfg_fault`, needs no configuration. -/
def stopEffect (s : Registers) : Effect := ifNotBusy s (done (fun n => { n with running := false }))

def execStop (s : State) : Host.Outcome State Fault Refusal := commandCycle s (stopEffect s.regs)

/-- RDCNT (R77): the count at the start of the cycle. -/
def rdCntEffect (s : Registers) : Effect := answer .ok 0 (zext32 s.cnt)

def execRdCnt (s : State) : Host.Outcome State Fault Refusal := commandCycle s (rdCntEffect s.regs)

/-- RDOVF (R78). -/
def rdOvfEffect (s : Registers) : Effect := answer .ok 0 (zext32 s.ovf)

def execRdOvf (s : State) : Host.Outcome State Fault Refusal := commandCycle s (rdOvfEffect s.regs)

end Sys2Proof.Machine
end

