-- ==== Sys2Proof/Machine/Dispatch.lean ====
section
/-! DEFINITION. The clock cycle in which a command is presented and `rst` = 0: one arm per command of R62. -/

namespace Sys2Proof.Machine

def exec (i : Instr) (s : State) : Host.Outcome State Fault Refusal :=
  match i with
  | .nop => Sys2Proof.Machine.execNop s
  | .configure divSel => Sys2Proof.Machine.execConfigure divSel s
  | .start => Sys2Proof.Machine.execStart s
  | .stop => Sys2Proof.Machine.execStop s
  | .setEdge edge => Sys2Proof.Machine.execSetEdge edge s
  | .pollCap => Sys2Proof.Machine.execPollCap s
  | .rdOvf => Sys2Proof.Machine.execRdOvf s
  | .rdCnt => Sys2Proof.Machine.execRdCnt s
  | .begin => Sys2Proof.Machine.execBegin s
  | .rdResult => Sys2Proof.Machine.execRdResult s
  | .convert raw24 => Sys2Proof.Machine.execConvert raw24 s
  | .setScale k => Sys2Proof.Machine.execSetScale k s
  | .setMin d => Sys2Proof.Machine.execSetMin d s
  | .setMax d => Sys2Proof.Machine.execSetMax d s
  | .setDeadline w => Sys2Proof.Machine.execSetDeadline w s
  | .setTrig nTicks => Sys2Proof.Machine.execSetTrig nTicks s
  | .rdReg idx => Sys2Proof.Machine.execRdReg idx s

end Sys2Proof.Machine
end

