-- ==== Sys2Proof/Machine/Step.lean ====
section
/-! DEFINITION. One clock cycle (R117): the step function of the ETU, the inputs being those of the coming cycle. -/

namespace Sys2Proof.Machine

/-- One cycle: reset, no command, a command, or a word that is no command (R63, R64, R69, R117, R151). -/
def step (s : State) : Host.Outcome State Fault Refusal :=
  match presented s.inputs with
  | .reset => resetCycle s
  | .nothing => idleCycle s
  | .word (.command i) => exec i s
  | .word .illegalOpcode => illegalCycle s
  | .word .reservedBits => reservedCycle s

/-- The machine with the command of `nbits` bits `w` on the command port in the coming cycle (assumption 7). -/
def State.withFetchWord (s : State) (nbits w : Nat) : State := s.presenting (BitVec.ofNat 32 (w % 2 ^ nbits))

end Sys2Proof.Machine
end

