-- ==== Sys2Proof/Safety.lean ====
section
/-! DEFINITION. The terms the statements use: the invariants of R45, what a cycle presents and answers, and the bound on
a measurement's length (R169). -/

namespace Sys2Proof.Machine

/-- The invariants (a) to (i) of R45 that speak of one state; (j) holds by the type `MeasState`. The last clause of (g),
on Idle and TimedOut, speaks of the past and is stated over steps. -/
structure Registers.Inv (r : Registers) : Prop where
  runningConfigured : r.running = true → r.configured = true
  configuredDivider : r.configured = true → 1 ≤ r.divSel.toNat ∧ r.divSel.toNat ≤ 5
  prescalerBelow : r.configured = true → ∀ d, divCycles r.divSel = some d → r.pre.toNat < d
  prescalerZero : r.configured = false → r.pre = 0
  busyRuns : busy r = true → r.running = true ∧ r.configured = true
  busyNoResult : busy r = true → r.resValid = false
  trigIff : r.trig = true ↔ r.state = .triggering
  armedRising : r.state = .triggering ∨ r.state = .awaitingRisingEdge ∨ r.state = .computing → r.armed = .rising
  armedFalling : r.state = .awaitingFallingEdge → r.armed = .falling
  deadlinePositive : 1 ≤ r.deadline.toNat
  trigTicksPositive : 1 ≤ r.trigTicks.toNat
  trigCountBelow : r.state = .triggering → r.trigCnt.toNat < r.trigTicks.toNat
  waitCountBelow : awaiting r = true → r.waitWraps.toNat < r.deadline.toNat

/-- What the result registers hold in every state of a run (R83, R137, R138, R142): the distance is 0 unless the kind is
InRange, a valid result has a kind, no partial result is kept, and no measurement runs under the fault. -/
structure Registers.ResultInv (r : Registers) : Prop where
  distanceOnlyInRange : r.resKind ≠ .inRange → r.resDist = 0
  validHasKind : r.resValid = true → r.resKind ≠ .none
  busyHasNone : busy r = true → r.raw = 0 ∧ r.resKind = .none
  timedOutRaw : r.state = .timedOut → r.raw = 0
  faultNotBusy : r.cfgFault = true → busy r = false

/-- The outputs of a cycle in which a command was answered (R116, R60). -/
def commandOutputs (s : Registers) (r : Response) : Outputs where
  trigOut := s.trig
  rspValid := true
  rsp := responseWord r
  done := s.resValid
  capEvt := s.capNew
  ovfEvt := wrap s

/-- The outcome of a cycle that answers a command with this response and leaves every register as the cycle's
autonomous operations leave it: no register is written by the command. -/
def answered (s : State) (r : Response) : Host.Outcome State Fault Refusal :=
  .next (s.advance (autonomous s.regs s.inputs.echoIn) (commandOutputs s.regs r))

/-- The outcome of a cycle that rejects a command (R11): the status, tag 0, data 0, no register written. -/
def rejected (s : State) (status : Status) : Host.Outcome State Fault Refusal := answered s ⟨status, 0, 0⟩

/-- The outcome of a cycle whose command is answered (OK, 0, 0) and leaves these registers. -/
def accepted (s : State) (regs : Registers) : Host.Outcome State Fault Refusal :=
  .next (s.advance regs (commandOutputs s.regs ⟨.ok, 0, 0⟩))

/-- A word with this opcode executes the command its low bits name where the operand is one of the format's `count`
values, that is where every reserved bit is 0, and is otherwise rejected with ERR_BADARG (R61, R62, R64). -/
def WordRuns (op count : Nat) (command : Nat → Instr) : Prop :=
  ∀ s : State, s.inputs.rst = false → s.inputs.cmdValid = true → s.inputs.cmd.toNat / 16777216 = op →
    step s =
      if s.inputs.cmd.toNat % 16777216 < count then exec (command (s.inputs.cmd.toNat % 16777216)) s
      else rejected s .errBadArg

/-- The command on the port in the coming cycle is this one (R59, R69). -/
def Presents (s : State) (i : Instr) : Prop := presented s.inputs = .word (.command i)

/-- The coming cycle executes an accepted BEGIN (R82). -/
def BeginAccepted (s : State) : Prop :=
  Presents s .begin ∧ busy s.regs = false ∧ s.regs.cfgFault = false ∧
    s.regs.configured = true ∧ s.regs.running = true

/-- The eleven idle-only commands (R73, R124). -/
def idleOnly : Instr → Bool
  | .configure _ => true
  | .start => true
  | .stop => true
  | .setEdge _ => true
  | .pollCap => true
  | .begin => true
  | .setScale _ => true
  | .setMin _ => true
  | .setMax _ => true
  | .setDeadline _ => true
  | .setTrig _ => true
  | .nop => false
  | .rdOvf => false
  | .rdCnt => false
  | .rdResult => false
  | .convert _ => false
  | .rdReg _ => false

/-- How many values the operand of an opcode has (R61, R62); `none` for the 239 illegal opcodes (R63). -/
def operandCount (op : Nat) : Option Nat :=
  if op ∈ [0x00, 0x02, 0x03, 0x05, 0x06, 0x07, 0x08, 0x09] then some 1
  else if op = 0x01 then some 8
  else if op = 0x04 then some 2
  else if op = 0x0A ∨ op = 0x10 then some 16777216
  else if 0x11 ≤ op ∧ op ≤ 0x14 then some 65536
  else if op = 0x15 then some 32
  else none

/-- No reset is applied in the coming `k` cycles. -/
def NoReset (k : Nat) (s : State) : Prop :=
  ∀ j < k, ∀ u, Host.Core.run Sys2Proof.core j s = .next u → u.inputs.rst = false

/-- `echo_in` is 1 in the coming `k` cycles and 0 in the cycle after them. -/
def EchoFallsAt (k : Nat) (s : State) : Prop :=
  (∀ j < k, ∀ u, Host.Core.run Sys2Proof.core j s = .next u → u.inputs.echoIn = true) ∧
  ∀ u, Host.Core.run Sys2Proof.core k s = .next u → u.inputs.echoIn = false

/-- No deadline passes in the coming `k` cycles nor in the cycle after them. -/
def NoDeadline (k : Nat) (s : State) : Prop :=
  ∀ j ≤ k, ∀ u, Host.Core.run Sys2Proof.core j s = .next u → expire u.regs = false

/-- How many of the coming `k` cycles are ticks. -/
def ticksIn : Nat → State → Nat
  | 0, _ => 0
  | k + 1, s =>
    (if tick s.regs then 1 else 0) +
      match step s with
      | .next t => ticksIn k t
      | .fault _ => 0
      | .refused _ => 0

/-- Clock cycles per tick while the timer is configured. -/
def cyclesPerTick (r : Registers) : Nat := (divCycles r.divSel).getD 1

/-- Ticks left before the sequencer leaves its states by itself: the trigger pulse's, then one deadline for each
awaiting state still to come (R98, R102, R103). -/
def remainingTicks (r : Registers) : Nat :=
  match r.state with
  | .triggering => (r.trigTicks.toNat - r.trigCnt.toNat) + 2 * r.deadline.toNat * Config.timerRange
  | .awaitingRisingEdge =>
    (r.deadline.toNat - r.waitWraps.toNat) * Config.timerRange - r.cnt.toNat + r.deadline.toNat * Config.timerRange
  | .awaitingFallingEdge => (r.deadline.toNat - r.waitWraps.toNat) * Config.timerRange - r.cnt.toNat
  | .idle => 0
  | .computing => 0
  | .timedOut => 0

/-- An upper bound on the cycles before a running measurement has a result (R169). -/
def remainingCycles (r : Registers) : Nat :=
  match r.state with
  | .triggering => remainingTicks r * cyclesPerTick r - r.pre.toNat + 1
  | .awaitingRisingEdge => remainingTicks r * cyclesPerTick r - r.pre.toNat + 1
  | .awaitingFallingEdge => remainingTicks r * cyclesPerTick r - r.pre.toNat + 1
  | .computing => 1
  | .idle => 0
  | .timedOut => 0

end Sys2Proof.Machine
end

