-- ==== Sys2Proof/Certificates/Slice0/Obligations.lean ====
section
/-! DEFINITION. The statements, from the numbered rules of the spec. `autonomous s.regs s.inputs.echoIn` is what the
cycle leaves in the registers when no command writes any: each command's frame is said against it, and the statements
about the autonomous operations say what it is, register by register. -/

open Sys2Proof Sys2Proof.Machine

/- ------------------------------------------------------------------ encoding ------------------------------- -/

/-- R61, R62, R70: decoding the encoding of a command, whatever its operand, gives the command back. -/
def Obligations.DecodeAfterEncode : Prop := ∀ i : Instr, decode (encode i) = .command i

/-- R62, R65: no two words are the same command; a word that decodes to a command is that command's encoding. -/
def Obligations.EncodeAfterDecode : Prop :=
  ∀ (w : BitVec 32) (i : Instr), decode w = .command i → encode i = w

/-- R61, R62, R63, R64: the opcode alone selects the row, and the word is a command exactly where the operand is in the
format's range, that is where the reserved bits are 0. -/
def Obligations.DecodeByOpcodeAndRange : Prop :=
  ∀ w : BitVec 32,
    match operandCount (w.toNat / 16777216) with
    | none => decode w = .illegalOpcode
    | some n =>
      if w.toNat % 16777216 < n then
        ∃ i, decode w = .command i ∧ i.opcode.toNat = w.toNat / 16777216 ∧ i.operand.toNat = w.toNat % 16777216
      else decode w = .reservedBits

/-- Words the spec writes out (R70 and the encoding vectors of 95_test_vectors.md section 8), one or more per family. -/
def Obligations.WrittenWordsDecode : Prop :=
  decode 0x01000003#32 = .command (.configure 3) ∧ decode 0x02000000#32 = .command .start ∧
  decode 0x04000001#32 = .command (.setEdge .falling) ∧ decode 0x05000000#32 = .command .pollCap ∧
  decode 0x08000000#32 = .command .begin ∧ decode 0x0A00048E#32 = .command (.convert 1166) ∧
  decode 0x10000232#32 = .command (.setScale 562) ∧ decode 0x12000190#32 = .command (.setMax 400) ∧
  decode 0x1500000E#32 = .command (.rdReg 14) ∧ decode 0x01000008#32 = .reservedBits ∧
  decode 0x0C000000#32 = .illegalOpcode

/-- R60, R67: the three fields of a response stand in the response word at their bit positions, the status under its
number. -/
def Obligations.ResponseWordFields : Prop :=
  ∀ r : Response,
    (responseWord r).toNat / 17179869184 = (statusCode r.status).toNat ∧
    (responseWord r).toNat / 4294967296 % 4 = r.tag.toNat ∧
    (responseWord r).toNat % 4294967296 = r.data.toNat ∧
    (statusCode .ok = 0 ∧ statusCode .none = 1 ∧ statusCode .errIllegal = 2 ∧ statusCode .errBadArg = 3 ∧
      statusCode .errBusy = 4 ∧ statusCode .errFault = 5 ∧ statusCode .errNotReady = 6)

/- ------------------------------------------------------------------ the cycle ------------------------------ -/

/-- R117, phase 3: with `rst` = 0 and a command word on the port, the cycle is `exec` of the command it decodes to. -/
def Obligations.StepRunsPresentedCommand : Prop :=
  ∀ (s : State) (i : Instr), s.inputs.rst = false → s.inputs.cmdValid = true →
    decode s.inputs.cmd = .command i → step s = exec i s

/-- R120: every state and every input give one next state; nothing is refused, stalls or faults; the inputs of the
cycle are consumed and the next cycle's stand first. -/
def Obligations.EveryCycleHasNextState : Prop :=
  ∀ s : State, ∃ t, step s = .next t ∧ t.stimulus = s.stimulus.tail ∧ t.cycle = s.cycle + 1

/-- R69: no command, no response; the autonomous operations run. The outputs are those of R116. -/
def Obligations.IdlePortGivesNoResponse : Prop :=
  ∀ s : State, s.inputs.rst = false → s.inputs.cmdValid = false →
    step s = .next (s.advance (autonomous s.regs s.inputs.echoIn)
      { trigOut := s.regs.trig, rspValid := false, rsp := 0, done := s.regs.resValid, capEvt := s.regs.capNew,
        ovfEvt := wrap s.regs })

/-- R151: in a cycle with `rst` = 1 every register takes its reset value, no command is executed whatever the port
holds, and the three level outputs still show the old registers. -/
def Obligations.ResetWinsOverEverything : Prop :=
  ∀ s : State, s.inputs.rst = true →
    step s = .next (s.advance Registers.reset
      { trigOut := s.regs.trig, rspValid := false, rsp := 0, done := s.regs.resValid, capEvt := s.regs.capNew,
        ovfEvt := false })

/-- R46, R152: a cycle with `rst` = 1 leaves the 30 reset values, whatever stood in the registers and whatever else
happens in that cycle; the machine's initial state holds them too. -/
def Obligations.ResetValues : Prop :=
  (∀ s : State, s.inputs.rst = true → ∃ t, step s = .next t ∧ t.regs = State.reset.regs) ∧
  State.reset.regs =
    { state := .idle, armed := .rising, running := false, configured := false, cfgFault := false, divSel := 0,
      pre := 0, cnt := 0, ovf := 0, echoQ := false, capTick := 0, capOvf := 0, capEdge := .rising, capNew := false,
      startTick := 0, startOvf := 0, endTick := 0, endOvf := 0, raw := 0, resValid := false, resKind := .none,
      resDist := 0, trig := false, trigCnt := 0, waitWraps := 0, scale := 562, dmin := 2, dmax := 400,
      deadline := 2, trigTicks := 21 }

/-- R63, R122: a word with one of the 239 illegal opcodes is answered (ERR_ILLEGAL, 0, 0) and changes no register,
whatever its immediate field and whatever state the ETU is in; the autonomous operations run as usual. -/
def Obligations.IllegalOpcodeAnswered : Prop :=
  ∀ s : State, s.inputs.rst = false → s.inputs.cmdValid = true →
    operandCount (s.inputs.cmd.toNat / 16777216) = none → step s = rejected s .errIllegal

/-- R116, R131, R132, R133: the level outputs are the registers at the start of the cycle, in every cycle; `ovf_evt`
is 1 in exactly the cycles that wrap with `rst` = 0; a response is valid exactly with `cmd_valid` = 1 and `rst` = 0. -/
def Obligations.OutputsOfEveryCycle : Prop :=
  ∀ s t : State, step s = .next t →
    t.out.trigOut = s.regs.trig ∧ t.out.done = s.regs.resValid ∧ t.out.capEvt = s.regs.capNew ∧
    t.out.ovfEvt = (!s.inputs.rst && wrap s.regs) ∧ t.out.rspValid = (!s.inputs.rst && s.inputs.cmdValid) ∧
    (t.out.rspValid = false → t.out.rsp = 0)

/- ------------------------------------------------------------------ the commands --------------------------- -/

/-- R86. -/
def Obligations.NopRule : Prop :=
  WordRuns 0x00 1 (fun _ => .nop) ∧ ∀ s : State, exec .nop s = answered s ⟨.ok, 0, 0⟩

/-- R74: the checks in their order, the three registers written on success, and the fault. -/
def Obligations.ConfigureRule : Prop :=
  WordRuns 0x01 8 (fun n => .configure (BitVec.ofNat 3 n)) ∧
  (divCycles 1 = some 1 ∧ divCycles 2 = some 8 ∧ divCycles 3 = some 64 ∧ divCycles 4 = some 256 ∧
    divCycles 5 = some 1024) ∧
  ∀ (s : State) (d : BitVec 3),
    (busy s.regs = true → exec (.configure d) s = rejected s .errBusy) ∧
    (busy s.regs = false → s.regs.cfgFault = true → exec (.configure d) s = rejected s .errFault) ∧
    (busy s.regs = false → s.regs.cfgFault = false → 1 ≤ d.toNat → d.toNat ≤ 5 →
      exec (.configure d) s = accepted s
        { autonomous s.regs s.inputs.echoIn with divSel := d, configured := true, pre := 0 }) ∧
    (busy s.regs = false → s.regs.cfgFault = false → d.toNat = 0 ∨ 5 < d.toNat →
      exec (.configure d) s = .next (s.advance { autonomous s.regs s.inputs.echoIn with cfgFault := true }
        (commandOutputs s.regs ⟨.errBadArg, 0, 0⟩)))

/-- R75: the checks in their order and the one register written; `cnt`, `ovf` and `pre` go on as the timer leaves
them. -/
def Obligations.StartRule : Prop :=
  WordRuns 0x02 1 (fun _ => .start) ∧ ∀ s : State,
    (busy s.regs = true → exec .start s = rejected s .errBusy) ∧
    (busy s.regs = false → s.regs.cfgFault = true → exec .start s = rejected s .errFault) ∧
    (busy s.regs = false → s.regs.cfgFault = false → s.regs.configured = false →
      exec .start s = rejected s .errNotReady) ∧
    (busy s.regs = false → s.regs.cfgFault = false → s.regs.configured = true →
      exec .start s = accepted s { autonomous s.regs s.inputs.echoIn with running := true })

/-- R76: not blocked by `cfg_fault`; a tick due in the STOP cycle still happens. -/
def Obligations.StopRule : Prop :=
  WordRuns 0x03 1 (fun _ => .stop) ∧ ∀ s : State,
    (busy s.regs = true → exec .stop s = rejected s .errBusy) ∧
    (busy s.regs = false → exec .stop s = accepted s { autonomous s.regs s.inputs.echoIn with running := false })

/-- R77, R78: in every state, the value at the start of the cycle. -/
def Obligations.CountReadsRule : Prop :=
  WordRuns 0x07 1 (fun _ => .rdCnt) ∧ WordRuns 0x06 1 (fun _ => .rdOvf) ∧ ∀ s : State,
    exec .rdCnt s = answered s ⟨.ok, 0, BitVec.ofNat 32 s.regs.cnt.toNat⟩ ∧
    exec .rdOvf s = answered s ⟨.ok, 0, BitVec.ofNat 32 s.regs.ovf.toNat⟩

/-- R79: 0 is Rising, 1 is Falling; a transition in the SETEDGE cycle is judged against the old arming. -/
def Obligations.SetEdgeRule : Prop :=
  WordRuns 0x04 2 (fun n => .setEdge (if n = 0 then .rising else .falling)) ∧ ∀ (s : State) (e : Edge),
    (busy s.regs = true → exec (.setEdge e) s = rejected s .errBusy) ∧
    (busy s.regs = false →
      exec (.setEdge e) s = accepted s { autonomous s.regs s.inputs.echoIn with armed := e })

/-- R80: the older event is returned and, with a capture in the very cycle of the POLLCAP, the newer one stays
pending. -/
def Obligations.PollCapRule : Prop :=
  WordRuns 0x05 1 (fun _ => .pollCap) ∧ ∀ s : State,
    (busy s.regs = true → exec .pollCap s = rejected s .errBusy) ∧
    (busy s.regs = false → s.regs.capNew = false → exec .pollCap s = rejected s .none) ∧
    (busy s.regs = false → s.regs.capNew = true →
      exec .pollCap s = .next (s.advance
        { autonomous s.regs s.inputs.echoIn with capNew := hit s.regs s.inputs.echoIn }
        (commandOutputs s.regs
          ⟨.ok, if s.regs.capEdge = .rising then 0 else 1,
            BitVec.ofNat 32 (s.regs.capOvf.toNat * 65536 + s.regs.capTick.toNat)⟩)))

/-- R82: the checks in their order and the fourteen registers written; the clear of `cap_new` wins over a capture in the
same cycle, whose pair is still latched. -/
def Obligations.BeginRule : Prop :=
  WordRuns 0x08 1 (fun _ => .begin) ∧ ∀ s : State,
    (busy s.regs = true → exec .begin s = rejected s .errBusy) ∧
    (busy s.regs = false → s.regs.cfgFault = true → exec .begin s = rejected s .errFault) ∧
    (busy s.regs = false → s.regs.cfgFault = false → s.regs.configured = false ∨ s.regs.running = false →
      exec .begin s = rejected s .errNotReady) ∧
    (busy s.regs = false → s.regs.cfgFault = false → s.regs.configured = true → s.regs.running = true →
      exec .begin s = accepted s
        { autonomous s.regs s.inputs.echoIn with
          state := .triggering, trig := true, trigCnt := 0, armed := .rising, waitWraps := 0,
          startTick := 0, startOvf := 0, endTick := 0, endOvf := 0, raw := 0,
          resValid := false, resKind := .none, resDist := 0, capNew := false })

/-- R83: in every state; the result's kind and distance stay readable. -/
def Obligations.RdResultRule : Prop :=
  WordRuns 0x09 1 (fun _ => .rdResult) ∧ ∀ s : State,
    (s.regs.resValid = false → exec .rdResult s = rejected s .none) ∧
    (s.regs.resValid = true →
      exec .rdResult s = .next (s.advance
        { autonomous s.regs s.inputs.echoIn with resValid := false }
        (commandOutputs s.regs
          ⟨.ok,
            match s.regs.resKind with
            | .inRange => 0
            | .outOfRange => 1
            | .timeout => 2
            | .none => 3,
            BitVec.ofNat 32 s.regs.resDist.toNat⟩)))

/-- R84: in every state; the answer is the converter's for the 24-bit tick count, and no register is written. -/
def Obligations.ConvertRule : Prop :=
  WordRuns 0x0A 16777216 (fun n => .convert (BitVec.ofNat 24 n)) ∧ ∀ (s : State) (r : BitVec 24),
    exec (.convert r) s = answered s
      (if s.regs.dmin.toNat ≤ (r.toNat * s.regs.scale.toNat + 32768) / 65536 ∧
          (r.toNat * s.regs.scale.toNat + 32768) / 65536 ≤ s.regs.dmax.toNat then
        ⟨.ok, 0, BitVec.ofNat 32 ((r.toNat * s.regs.scale.toNat + 32768) / 65536)⟩
      else ⟨.ok, 1, 0⟩)

/-- R87, R88, R89: every value is legal, and the two bounds are not compared. -/
def Obligations.ConversionSettersRule : Prop :=
  WordRuns 0x10 16777216 (fun n => .setScale (BitVec.ofNat 24 n)) ∧
  WordRuns 0x11 65536 (fun n => .setMin (BitVec.ofNat 16 n)) ∧
  WordRuns 0x12 65536 (fun n => .setMax (BitVec.ofNat 16 n)) ∧ ∀ (s : State) (k : BitVec 24) (d : BitVec 16),
    (busy s.regs = true →
      exec (.setScale k) s = rejected s .errBusy ∧ exec (.setMin d) s = rejected s .errBusy ∧
      exec (.setMax d) s = rejected s .errBusy) ∧
    (busy s.regs = false →
      exec (.setScale k) s = accepted s { autonomous s.regs s.inputs.echoIn with scale := k } ∧
      exec (.setMin d) s = accepted s { autonomous s.regs s.inputs.echoIn with dmin := d } ∧
      exec (.setMax d) s = accepted s { autonomous s.regs s.inputs.echoIn with dmax := d })

/-- R90, R91: 0 is refused, after the busy check. -/
def Obligations.CountSettersRule : Prop :=
  WordRuns 0x13 65536 (fun n => .setDeadline (BitVec.ofNat 16 n)) ∧
  WordRuns 0x14 65536 (fun n => .setTrig (BitVec.ofNat 16 n)) ∧ ∀ (s : State) (w : BitVec 16),
    (busy s.regs = true →
      exec (.setDeadline w) s = rejected s .errBusy ∧ exec (.setTrig w) s = rejected s .errBusy) ∧
    (busy s.regs = false → w = 0 →
      exec (.setDeadline w) s = rejected s .errBadArg ∧ exec (.setTrig w) s = rejected s .errBadArg) ∧
    (busy s.regs = false → w ≠ 0 →
      exec (.setDeadline w) s = accepted s { autonomous s.regs s.inputs.echoIn with deadline := w } ∧
      exec (.setTrig w) s = accepted s { autonomous s.regs s.inputs.echoIn with trigTicks := w })

/-- R92, R49, R39, R40: in every state, the register or view of the index, zero-extended, each field of a view at its
bit position and under its number of R12; the indices 15 to 31 are refused; no register is written. -/
def Obligations.RdRegRule : Prop :=
  WordRuns 0x15 32 (fun n => .rdReg (BitVec.ofNat 5 n)) ∧ (∀ (s : State) (idx : BitVec 5),
    (idx.toNat ≤ 14 → exec (.rdReg idx) s = answered s ⟨.ok, 0, BitVec.ofNat 32 (
      match idx.toNat with
      | 0 => s.regs.cnt.toNat
      | 1 => s.regs.ovf.toNat
      | 2 => s.regs.capOvf.toNat * 65536 + s.regs.capTick.toNat
      | 3 => s.regs.startOvf.toNat * 65536 + s.regs.startTick.toNat
      | 4 => s.regs.endOvf.toNat * 65536 + s.regs.endTick.toNat
      | 5 => s.regs.raw.toNat
      | 6 => s.regs.resDist.toNat + 65536 * (resultKindCode s.regs.resKind).toNat +
          2147483648 * s.regs.resValid.toNat
      | 7 => (measStateCode s.regs.state).toNat + 8 * (edgeBit s.regs.armed).toNat +
          16 * s.regs.running.toNat + 32 * s.regs.configured.toNat + 64 * s.regs.cfgFault.toNat +
          128 * s.regs.capNew.toNat + 256 * (edgeBit s.regs.capEdge).toNat + 512 * s.regs.resValid.toNat +
          1024 * (resultKindCode s.regs.resKind).toNat + 4096 * s.regs.echoQ.toNat + 8192 * s.regs.trig.toNat
      | 8 => s.regs.divSel.toNat
      | 9 => s.regs.scale.toNat
      | 10 => s.regs.dmin.toNat
      | 11 => s.regs.dmax.toNat
      | 12 => s.regs.deadline.toNat
      | 13 => s.regs.trigTicks.toNat
      | _ => s.regs.ovf.toNat * 65536 + s.regs.cnt.toNat)⟩) ∧
    (15 ≤ idx.toNat → exec (.rdReg idx) s = rejected s .errBadArg)) ∧
  (measStateCode .idle = 0 ∧ measStateCode .triggering = 1 ∧ measStateCode .awaitingRisingEdge = 2 ∧
    measStateCode .awaitingFallingEdge = 3 ∧ measStateCode .computing = 4 ∧ measStateCode .timedOut = 5) ∧
  (resultKindCode .inRange = 0 ∧ resultKindCode .outOfRange = 1 ∧ resultKindCode .timeout = 2 ∧
    resultKindCode .none = 3) ∧
  edgeBit .rising = 0 ∧ edgeBit .falling = 1

/-- R124: the eleven idle-only commands, and no others, are rejected while busy, whatever their operand, and the
measurement in progress is not disturbed. TimedOut is not busy. -/
def Obligations.IdleOnlyCommandsBounce : Prop :=
  ∀ (s : State) (i : Instr),
    (busy s.regs = true →
      (idleOnly i = true → exec i s = rejected s .errBusy) ∧
      (idleOnly i = false → exec i s ≠ rejected s .errBusy)) ∧
    (s.regs.state = .timedOut → busy s.regs = false)

/-- R135, R123(b): a command whose operand is legal is never answered ERR_BADARG by its own rule; one whose operand is
not is answered ERR_BADARG wherever its earlier checks pass. -/
def Obligations.OperandCheckIsWellFormedness : Prop :=
  ∀ (s : State) (i : Instr),
    (i.wellFormed = true → ∀ t, exec i s = .next t → t.out.rsp.toNat / 17179869184 ≠ 3) ∧
    (i.wellFormed = false → busy s.regs = false → s.regs.cfgFault = false →
      ∃ t, exec i s = .next t ∧ t.out.rsp = responseWord ⟨.errBadArg, 0, 0⟩)

/- ------------------------------------------------------------------ the autonomous operations --------------- -/

/-- R95: `cnt` in every cycle with `rst` = 0, and `pre` in every such cycle that presents no CONFIGURE, for every
divider code that has a `DIV` and a prescaler phase below it. -/
def Obligations.TickRule : Prop :=
  ∀ (s : State) (d : Nat), s.inputs.rst = false → divCycles s.regs.divSel = some d → s.regs.pre.toNat < d →
    ∃ t, step s = .next t ∧
      (s.regs.running = true → s.regs.pre.toNat = d - 1 →
        t.regs.cnt.toNat = (s.regs.cnt.toNat + 1) % 65536 ∧
        ((∀ c, ¬ Presents s (.configure c)) → t.regs.pre = 0)) ∧
      (s.regs.running = true → s.regs.pre.toNat ≠ d - 1 →
        t.regs.cnt = s.regs.cnt ∧
        ((∀ c, ¬ Presents s (.configure c)) → t.regs.pre.toNat = s.regs.pre.toNat + 1)) ∧
      (s.regs.running = false →
        t.regs.cnt = s.regs.cnt ∧ ((∀ c, ¬ Presents s (.configure c)) → t.regs.pre = s.regs.pre))

/-- R96: `ovf` counts exactly the wraps, modulo 65536, and nothing else writes it; the pair `{ovf, cnt}` increases by
exactly 1 per tick modulo 2^32. -/
def Obligations.WrapRule : Prop :=
  ∀ s : State, s.inputs.rst = false →
    ∃ t, step s = .next t ∧
      t.out.ovfEvt = decide (tick s.regs = true ∧ s.regs.cnt.toNat = 65535) ∧
      t.regs.ovf.toNat =
        (if tick s.regs = true ∧ s.regs.cnt.toNat = 65535 then (s.regs.ovf.toNat + 1) % 65536
         else s.regs.ovf.toNat) ∧
      timestamp t.regs.ovf t.regs.cnt =
        (timestamp s.regs.ovf s.regs.cnt + (if tick s.regs = true then 1 else 0)) % 4294967296

/-- R97: `echo_in` is sampled in every cycle, and the pair held in that cycle is latched on a transition of the armed
edge, whatever the timer, the sequencer and the command do; the pending flag is set but for an accepted BEGIN. -/
def Obligations.CaptureRule : Prop :=
  ∀ s : State, s.inputs.rst = false →
    ∃ t, step s = .next t ∧ t.regs.echoQ = s.inputs.echoIn ∧
      if (s.regs.armed = .rising ∧ s.inputs.echoIn = true ∧ s.regs.echoQ = false) ∨
          (s.regs.armed = .falling ∧ s.inputs.echoIn = false ∧ s.regs.echoQ = true) then
        t.regs.capTick = s.regs.cnt ∧ t.regs.capOvf = s.regs.ovf ∧ t.regs.capEdge = s.regs.armed ∧
          (¬ BeginAccepted s → t.regs.capNew = true)
      else
        t.regs.capTick = s.regs.capTick ∧ t.regs.capOvf = s.regs.capOvf ∧ t.regs.capEdge = s.regs.capEdge

/-- R25, R118: who wins over `cap_new` in one cycle: an accepted BEGIN's clear over CAPTURE's set, that set over every
other clear, and without a clear the flag is kept. -/
def Obligations.CapturePendingPriority : Prop :=
  ∀ s : State, s.inputs.rst = false →
    ∃ t, step s = .next t ∧
      (BeginAccepted s → t.regs.capNew = false) ∧
      (¬ BeginAccepted s → hit s.regs s.inputs.echoIn = true → t.regs.capNew = true) ∧
      (¬ BeginAccepted s → hit s.regs s.inputs.echoIn = false →
        (Presents s .pollCap ∧ busy s.regs = false) ∨ accept s.regs = true ∨ discard s.regs = true →
          t.regs.capNew = false) ∧
      (¬ BeginAccepted s → hit s.regs s.inputs.echoIn = false →
        ¬ (Presents s .pollCap ∧ busy s.regs = false) → accept s.regs = false → discard s.regs = false →
          t.regs.capNew = s.regs.capNew)

/-- R98: the trigger pulse ends at the `trig_ticks`-th tick, whatever command is presented. -/
def Obligations.TrigStepRule : Prop :=
  ∀ s : State, s.inputs.rst = false → s.regs.state = .triggering →
    ∃ t, step s = .next t ∧
      (tick s.regs = false →
        t.regs.state = .triggering ∧ t.regs.trig = s.regs.trig ∧ t.regs.trigCnt = s.regs.trigCnt ∧
          t.regs.waitWraps = s.regs.waitWraps) ∧
      (tick s.regs = true → s.regs.trigCnt.toNat + 1 < s.regs.trigTicks.toNat →
        t.regs.state = .triggering ∧ t.regs.trig = s.regs.trig ∧
          t.regs.trigCnt.toNat = s.regs.trigCnt.toNat + 1 ∧ t.regs.waitWraps = s.regs.waitWraps) ∧
      (tick s.regs = true → s.regs.trigTicks.toNat ≤ s.regs.trigCnt.toNat + 1 →
        t.regs.state = .awaitingRisingEdge ∧ t.regs.trig = false ∧ t.regs.trigCnt = s.regs.trigCnt ∧
          t.regs.waitWraps = 0)

/-- R99: the latched rising event becomes the start of the pulse window; a timeout due in the same cycle loses. -/
def Obligations.AcceptRiseRule : Prop :=
  ∀ s : State, s.inputs.rst = false → s.regs.state = .awaitingRisingEdge → s.regs.capNew = true →
    s.regs.capEdge = .rising →
    ∃ t, step s = .next t ∧ t.regs.startTick = s.regs.capTick ∧ t.regs.startOvf = s.regs.capOvf ∧
      t.regs.capNew = hit s.regs s.inputs.echoIn ∧ t.regs.armed = .falling ∧
      t.regs.state = .awaitingFallingEdge ∧ t.regs.waitWraps = 0 ∧ t.regs.resKind = s.regs.resKind ∧
      t.regs.endTick = s.regs.endTick ∧ t.regs.endOvf = s.regs.endOvf ∧ t.regs.raw = s.regs.raw

/-- R100: the latched falling event becomes the end of the pulse window, and Rising is armed again. -/
def Obligations.AcceptFallRule : Prop :=
  ∀ s : State, s.inputs.rst = false → s.regs.state = .awaitingFallingEdge → s.regs.capNew = true →
    s.regs.capEdge = .falling →
    ∃ t, step s = .next t ∧ t.regs.endTick = s.regs.capTick ∧ t.regs.endOvf = s.regs.capOvf ∧
      t.regs.capNew = hit s.regs s.inputs.echoIn ∧ t.regs.armed = .rising ∧
      t.regs.state = .computing ∧ t.regs.waitWraps = 0 ∧ t.regs.resKind = s.regs.resKind ∧
      t.regs.startTick = s.regs.startTick ∧ t.regs.startOvf = s.regs.startOvf ∧ t.regs.raw = s.regs.raw

/-- R101: an event of the wrong polarity is cleared and never accepted: it leaves the state and the arming as they are,
but for a timeout due in the same cycle, and leaves the pulse window as it is. -/
def Obligations.DiscardRule : Prop :=
  ∀ s : State, s.inputs.rst = false → s.regs.capNew = true →
    (s.regs.state = .awaitingRisingEdge ∧ s.regs.capEdge = .falling) ∨
      (s.regs.state = .awaitingFallingEdge ∧ s.regs.capEdge = .rising) →
    ∃ t, step s = .next t ∧ t.regs.capNew = hit s.regs s.inputs.echoIn ∧
      t.regs.startTick = s.regs.startTick ∧ t.regs.startOvf = s.regs.startOvf ∧
      t.regs.endTick = s.regs.endTick ∧ t.regs.endOvf = s.regs.endOvf ∧
      (wrap s.regs = false ∨ s.regs.waitWraps.toNat + 1 < s.regs.deadline.toNat →
        t.regs.state = s.regs.state ∧ t.regs.armed = s.regs.armed)

/-- R102: the deadline is counted in wraps, while an awaiting state accepts nothing. -/
def Obligations.WaitWrapRule : Prop :=
  ∀ s : State, s.inputs.rst = false → awaiting s.regs = true → accept s.regs = false → wrap s.regs = true →
    s.regs.waitWraps.toNat + 1 < s.regs.deadline.toNat →
    ∃ t, step s = .next t ∧ t.regs.waitWraps.toNat = s.regs.waitWraps.toNat + 1 ∧
      t.regs.state = s.regs.state ∧ t.regs.armed = s.regs.armed ∧ t.regs.resKind = s.regs.resKind

/-- R103, R138: entry to TimedOut at the `deadline`-th wrap: the five registers written, and what the entry leaves
unchanged; a capture latched in the same cycle stays pending. -/
def Obligations.TimeoutRule : Prop :=
  ∀ s : State, s.inputs.rst = false → s.regs.resValid = false → awaiting s.regs = true → accept s.regs = false →
    wrap s.regs = true → s.regs.deadline.toNat ≤ s.regs.waitWraps.toNat + 1 →
    ∃ t, step s = .next t ∧ t.regs.state = .timedOut ∧ t.regs.resKind = .timeout ∧ t.regs.resDist = 0 ∧
      t.regs.resValid = true ∧ t.regs.armed = .rising ∧ t.regs.raw = s.regs.raw ∧
      t.regs.startTick = s.regs.startTick ∧ t.regs.startOvf = s.regs.startOvf ∧
      t.regs.endTick = s.regs.endTick ∧ t.regs.endOvf = s.regs.endOvf ∧ t.regs.waitWraps = s.regs.waitWraps ∧
      t.regs.trigCnt = s.regs.trigCnt ∧ t.regs.trig = s.regs.trig ∧
      t.regs.capNew = (hit s.regs s.inputs.echoIn || (s.regs.capNew && !discard s.regs))

/-- R104: Computing lasts one cycle and produces the result of the pulse window. -/
def Obligations.ComputeRule : Prop :=
  ∀ s : State, s.inputs.rst = false → s.regs.resValid = false → s.regs.state = .computing →
    ∃ t, step s = .next t ∧ t.regs.state = .idle ∧ t.regs.resValid = true ∧
      t.regs.raw = rawTicks s.regs.startOvf s.regs.startTick s.regs.endOvf s.regs.endTick ∧
      (t.regs.resKind, t.regs.resDist) = convert t.regs.raw s.regs.scale s.regs.dmin s.regs.dmax ∧
      t.regs.startTick = s.regs.startTick ∧ t.regs.startOvf = s.regs.startOvf ∧
      t.regs.endTick = s.regs.endTick ∧ t.regs.endOvf = s.regs.endOvf ∧ t.regs.armed = s.regs.armed

/-- R23, R106: the complete transition table of `state`, as a function of the cycle. -/
def Obligations.TransitionTable : Prop :=
  ∀ s t : State, step s = .next t →
    (s.inputs.rst = true → t.regs.state = .idle) ∧
    (s.inputs.rst = false → s.regs.state = .idle ∨ s.regs.state = .timedOut →
      (BeginAccepted s → t.regs.state = .triggering) ∧ (¬ BeginAccepted s → t.regs.state = s.regs.state)) ∧
    (s.inputs.rst = false → s.regs.state = .triggering →
      t.regs.state =
        if tick s.regs = true ∧ s.regs.trigTicks.toNat ≤ s.regs.trigCnt.toNat + 1 then .awaitingRisingEdge
        else .triggering) ∧
    (s.inputs.rst = false → s.regs.state = .awaitingRisingEdge →
      t.regs.state =
        if s.regs.capNew = true ∧ s.regs.capEdge = .rising then .awaitingFallingEdge
        else if wrap s.regs = true ∧ s.regs.deadline.toNat ≤ s.regs.waitWraps.toNat + 1 then .timedOut
        else .awaitingRisingEdge) ∧
    (s.inputs.rst = false → s.regs.state = .awaitingFallingEdge →
      t.regs.state =
        if s.regs.capNew = true ∧ s.regs.capEdge = .falling then .computing
        else if wrap s.regs = true ∧ s.regs.deadline.toNat ≤ s.regs.waitWraps.toNat + 1 then .timedOut
        else .awaitingFallingEdge) ∧
    (s.inputs.rst = false → s.regs.state = .computing → t.regs.state = .idle)

/-- R27 to R29, R33 to R38: who writes the control registers and the timer's flags, and when; nothing else does. -/
def Obligations.ControlRegisterWriters : Prop :=
  ∀ s t : State, s.inputs.rst = false → step s = .next t →
    (t.regs.scale ≠ s.regs.scale → Presents s (.setScale t.regs.scale) ∧ busy s.regs = false) ∧
    (t.regs.dmin ≠ s.regs.dmin → Presents s (.setMin t.regs.dmin) ∧ busy s.regs = false) ∧
    (t.regs.dmax ≠ s.regs.dmax → Presents s (.setMax t.regs.dmax) ∧ busy s.regs = false) ∧
    (t.regs.deadline ≠ s.regs.deadline →
      Presents s (.setDeadline t.regs.deadline) ∧ busy s.regs = false ∧ t.regs.deadline ≠ 0) ∧
    (t.regs.trigTicks ≠ s.regs.trigTicks →
      Presents s (.setTrig t.regs.trigTicks) ∧ busy s.regs = false ∧ t.regs.trigTicks ≠ 0) ∧
    (t.regs.divSel ≠ s.regs.divSel →
      Presents s (.configure t.regs.divSel) ∧ busy s.regs = false ∧ s.regs.cfgFault = false ∧
        1 ≤ t.regs.divSel.toNat ∧ t.regs.divSel.toNat ≤ 5) ∧
    (t.regs.running ≠ s.regs.running →
      busy s.regs = false ∧
        if t.regs.running then Presents s .start ∧ s.regs.configured = true ∧ s.regs.cfgFault = false
        else Presents s .stop) ∧
    (t.regs.configured ≠ s.regs.configured →
      t.regs.configured = true ∧ busy s.regs = false ∧ s.regs.cfgFault = false ∧
        ∃ d, Presents s (.configure d) ∧ 1 ≤ d.toNat ∧ d.toNat ≤ 5) ∧
    (t.regs.cfgFault ≠ s.regs.cfgFault →
      t.regs.cfgFault = true ∧ busy s.regs = false ∧ s.regs.cfgFault = false ∧
        ∃ d, Presents s (.configure d) ∧ (d.toNat = 0 ∨ 5 < d.toNat))

/-- R17 to R20, R30 to R32, R43, R44: who writes the registers of a measurement, and when; nothing else does. Within
TRIGSTEP the tick that ends the pulse writes `trig` and `wait_wraps`, every earlier one `trig_cnt` (R98); the timeout
writes none of the three (R103(a)). -/
def Obligations.MeasurementRegisterWriters : Prop :=
  ∀ s t : State, s.inputs.rst = false → step s = .next t →
    (t.regs.startTick ≠ s.regs.startTick ∨ t.regs.startOvf ≠ s.regs.startOvf →
      BeginAccepted s ∨ (s.regs.state = .awaitingRisingEdge ∧ accept s.regs = true)) ∧
    (t.regs.endTick ≠ s.regs.endTick ∨ t.regs.endOvf ≠ s.regs.endOvf →
      BeginAccepted s ∨ (s.regs.state = .awaitingFallingEdge ∧ accept s.regs = true)) ∧
    (t.regs.raw ≠ s.regs.raw → BeginAccepted s ∨ s.regs.state = .computing) ∧
    (t.regs.resKind ≠ s.regs.resKind ∨ t.regs.resDist ≠ s.regs.resDist →
      BeginAccepted s ∨ s.regs.state = .computing ∨ expire s.regs = true) ∧
    (s.regs.resValid = false → t.regs.resValid = true → s.regs.state = .computing ∨ expire s.regs = true) ∧
    (s.regs.resValid = true → t.regs.resValid = false → BeginAccepted s ∨ Presents s .rdResult) ∧
    (s.regs.trig = false → t.regs.trig = true → BeginAccepted s) ∧
    (s.regs.trig = true → t.regs.trig = false →
      s.regs.state = .triggering ∧ tick s.regs = true ∧ s.regs.trigTicks.toNat ≤ s.regs.trigCnt.toNat + 1) ∧
    (t.regs.trigCnt ≠ s.regs.trigCnt →
      BeginAccepted s ∨
        (s.regs.state = .triggering ∧ tick s.regs = true ∧ s.regs.trigCnt.toNat + 1 < s.regs.trigTicks.toNat)) ∧
    (t.regs.waitWraps ≠ s.regs.waitWraps →
      BeginAccepted s ∨
        (s.regs.state = .triggering ∧ tick s.regs = true ∧ s.regs.trigTicks.toNat ≤ s.regs.trigCnt.toNat + 1) ∨
        (awaiting s.regs = true ∧ (accept s.regs = true ∨ (wrap s.regs = true ∧ expire s.regs = false))))

/-- R21: no command but an accepted BEGIN changes a data register: what any other command leaves in them is what the
autonomous operations leave. -/
def Obligations.DataRegistersNotWritable : Prop :=
  ∀ (s t : State) (i : Instr), i ≠ .begin → exec i s = .next t →
    t.regs.cnt = (autonomous s.regs s.inputs.echoIn).cnt ∧ t.regs.ovf = (autonomous s.regs s.inputs.echoIn).ovf ∧
    t.regs.capTick = (autonomous s.regs s.inputs.echoIn).capTick ∧
    t.regs.capOvf = (autonomous s.regs s.inputs.echoIn).capOvf ∧
    t.regs.startTick = (autonomous s.regs s.inputs.echoIn).startTick ∧
    t.regs.startOvf = (autonomous s.regs s.inputs.echoIn).startOvf ∧
    t.regs.endTick = (autonomous s.regs s.inputs.echoIn).endTick ∧
    t.regs.endOvf = (autonomous s.regs s.inputs.echoIn).endOvf ∧
    t.regs.raw = (autonomous s.regs s.inputs.echoIn).raw ∧
    t.regs.resDist = (autonomous s.regs s.inputs.echoIn).resDist

/-- R81: the arming is written by the sequencer alone while busy and by SETEDGE and BEGIN alone while not busy, and
Rising is armed whenever a measurement has ended. -/
def Obligations.ArmedEdgeOwnership : Prop :=
  ∀ s t : State, s.inputs.rst = false → step s = .next t →
    (busy s.regs = false → t.regs.armed ≠ s.regs.armed →
      Presents s (.setEdge t.regs.armed) ∨ (BeginAccepted s ∧ t.regs.armed = .rising)) ∧
    (busy s.regs = true →
      t.regs.armed =
        if accept s.regs then (if s.regs.state = .awaitingRisingEdge then .falling else .rising)
        else if expire s.regs then .rising else s.regs.armed) ∧
    (s.regs.Inv → busy s.regs = true → busy t.regs = false → t.regs.armed = .rising)

/- ------------------------------------------------------------------ arithmetic ------------------------------ -/

/-- R105: RawTicks is the difference of the two extended timestamps modulo 2^32, so that it is the number of ticks
between them whenever that number is below 2^32, also when `ovf` wrapped in between. -/
def Obligations.RawTicksIsTimestampDifference : Prop :=
  ∀ (so st eo et : BitVec 16) (n : Nat), n < 4294967296 →
    ((rawTicks so st eo et).toNat = n ↔ (timestamp so st + n) % 4294967296 = timestamp eo et)

/-- R109, R110, R111: the distance is `raw × scale / 65536` to the nearest integer, an exact half rounded up, compared
at full width with both bounds inclusive; out of range the distance returned is 0. -/
def Obligations.ConverterRoundsAndClassifies : Prop :=
  ∀ (raw : BitVec 32) (scale : BitVec 24) (dmin dmax : BitVec 16) (d : Nat),
    2 * raw.toNat * scale.toNat < (2 * d + 1) * 65536 → 2 * d * 65536 ≤ 2 * raw.toNat * scale.toNat + 65536 →
    (dmin.toNat ≤ d → d ≤ dmax.toNat →
      (convert raw scale dmin dmax).1 = .inRange ∧ (convert raw scale dmin dmax).2.toNat = d) ∧
    (d < dmin.toNat ∨ dmax.toNat < d → convert raw scale dmin dmax = (.outOfRange, 0))

/-- R112, R113: the distance is non-decreasing in the tick count and in the scale, and fits 40 bits. -/
def Obligations.ConverterMonotone : Prop :=
  (∀ raw1 raw2 scale1 scale2 : Nat, raw1 ≤ raw2 → scale1 ≤ scale2 →
    distanceCm raw1 scale1 ≤ distanceCm raw2 scale2) ∧
  (∀ (raw : BitVec 32) (scale : BitVec 24), raw.toNat * scale.toNat + 32768 < 72057594037927936 ∧
    distanceCm raw.toNat scale.toNat < 1099511627776)

/- ------------------------------------------------------------------ invariants ------------------------------ -/

/-- R45: the invariants hold in the reset state. -/
def Obligations.ResetMeetsInvariants : Prop := State.reset.regs.Inv ∧ State.reset.regs.ResultInv

/-- R45, R120: every cycle, whatever its inputs, keeps the invariants. -/
def Obligations.StepKeepsInvariants : Prop :=
  ∀ s t : State, s.regs.Inv → step s = .next t → t.regs.Inv

/-- R83, R137, R138, R142: every cycle keeps what the result registers hold; no partial result, no measurement under
the fault. -/
def Obligations.StepKeepsResultInvariants : Prop :=
  ∀ s t : State, s.regs.ResultInv → step s = .next t → t.regs.ResultInv

/-- R141, R142: the fault leaves only by reset, and while it is set no measurement is started. -/
def Obligations.FaultLeavesOnlyByReset : Prop :=
  ∀ s t : State, s.regs.cfgFault = true → step s = .next t →
    (s.inputs.rst = false → t.regs.cfgFault = true) ∧ (s.inputs.rst = true → t.regs.cfgFault = false) ∧
    (busy s.regs = false → busy t.regs = false)

/-- R144 (guarantee 5): a valid result does not change until RDRESULT, BEGIN or reset. -/
def Obligations.ResultStaysUntilFetched : Prop :=
  ∀ s t : State, s.regs.Inv → s.regs.resValid = true → s.inputs.rst = false → ¬ Presents s .rdResult →
    ¬ BeginAccepted s → step s = .next t →
    t.regs.resValid = true ∧ t.regs.resKind = s.regs.resKind ∧ t.regs.resDist = s.regs.resDist ∧
      t.regs.raw = s.regs.raw

/-- R60, R116: the outputs of a cycle do not depend on `echo_in` in that cycle, nor on anything but the registers at its
start and the other inputs. -/
def Obligations.OutputsIgnoreEcho : Prop :=
  ∀ s1 s2 t1 t2 : State, s1.regs = s2.regs → s1.inputs.rst = s2.inputs.rst →
    s1.inputs.cmdValid = s2.inputs.cmdValid → s1.inputs.cmd = s2.inputs.cmd →
    step s1 = .next t1 → step s2 = .next t2 → t1.out = t2.out

/-- R148: `pre`, `trig_cnt` and `wait_wraps` cannot be read: two states that differ in them alone give every command
the same response. -/
def Obligations.HiddenRegistersUnreadable : Prop :=
  ∀ (s1 s2 t1 t2 : State) (p : BitVec 10) (c w : BitVec 16) (i : Instr),
    s2.regs = { s1.regs with pre := p, trigCnt := c, waitWraps := w } →
    exec i s1 = .next t1 → exec i s2 = .next t2 → t1.out.rsp = t2.out.rsp

/- ------------------------------------------------------------------ runs ------------------------------------ -/

/-- R169: in a busy state that meets R45 and in a cycle without reset, either the result becomes valid or the bound on
the remaining cycles falls; whatever `echo_in` and the host do. -/
def Obligations.RemainingCyclesFall : Prop :=
  ∀ s : State, s.regs.Inv → busy s.regs = true → s.inputs.rst = false →
    ∃ t, step s = .next t ∧
      (t.regs.resValid = true ∨ (busy t.regs = true ∧ remainingCycles t.regs < remainingCycles s.regs))

/-- R169: after an accepted BEGIN in cycle `b`, `res_valid`, which `done` shows, is 1 no later than cycle
`b + (trig_ticks + 2 × deadline × 65536) × DIV + 2`, whatever `echo_in` and the host do short of a reset. The result is
the new measurement's: the ETU is busy in every cycle from `b + 1` on until then. -/
def Obligations.EveryMeasurementEnds : Prop :=
  ∀ (s : State) (d : Nat), s.regs.Inv → BeginAccepted s → divCycles s.regs.divSel = some d →
    NoReset ((s.regs.trigTicks.toNat + 2 * s.regs.deadline.toNat * 65536) * d + 2) s →
    ∃ k t, 1 ≤ k ∧ k ≤ (s.regs.trigTicks.toNat + 2 * s.regs.deadline.toNat * 65536) * d + 2 ∧
      (∀ j, 1 ≤ j → j < k → ∃ u, Host.Core.run Sys2Proof.core j s = .next u ∧ busy u.regs = true ∧
        u.regs.resValid = false) ∧
      Host.Core.run Sys2Proof.core k s = .next t ∧ t.regs.resValid = true ∧ busy t.regs = false

/-- R173: BEGIN accepted in cycle `b`: with `p` the prescaler phase in cycle `b + 1`, the trigger output is 1 in the
`(trig_ticks - 1) × DIV + (DIV - p)` cycles from `b + 1` on, and the sequencer then awaits the rising edge. -/
def Obligations.TriggerPulseLength : Prop :=
  ∀ (s u : State) (d : Nat), s.regs.Inv → BeginAccepted s → divCycles s.regs.divSel = some d →
    step s = .next u →
    NoReset ((s.regs.trigTicks.toNat - 1) * d + (d - u.regs.pre.toNat)) u →
    (s.regs.trigTicks.toNat - 1) * d + 1 ≤ (s.regs.trigTicks.toNat - 1) * d + (d - u.regs.pre.toNat) ∧
    (s.regs.trigTicks.toNat - 1) * d + (d - u.regs.pre.toNat) ≤ s.regs.trigTicks.toNat * d ∧
    (∀ j < (s.regs.trigTicks.toNat - 1) * d + (d - u.regs.pre.toNat),
      ∃ t, Host.Core.run Sys2Proof.core j u = .next t ∧ t.regs.trig = true ∧ t.regs.state = .triggering) ∧
    ∃ t, Host.Core.run Sys2Proof.core ((s.regs.trigTicks.toNat - 1) * d + (d - u.regs.pre.toNat)) u = .next t ∧
      t.regs.trig = false ∧ t.regs.state = .awaitingRisingEdge

/-- R172: a falling transition sampled in cycle `t` while the falling edge is awaited gives a result from cycle `t + 3`
on, and not before; the result is of the pair held in cycle `t`, before that cycle's tick. Likewise a rising transition
sampled in cycle `t` puts the sequencer in AwaitingFallingEdge from cycle `t + 2`. An event of the wrong polarity may be
pending in cycle `t`: it is discarded. -/
def Obligations.EdgeToResultLatency : Prop :=
  ∀ s : State, s.regs.Inv → accept s.regs = false → expire s.regs = false →
    (s.regs.state = .awaitingFallingEdge → s.inputs.echoIn = false → s.regs.echoQ = true → NoReset 3 s →
      ∃ t1 t2 t3, step s = .next t1 ∧ step t1 = .next t2 ∧ step t2 = .next t3 ∧
        t1.regs.state = .awaitingFallingEdge ∧ t1.regs.resValid = false ∧
        t2.regs.state = .computing ∧ t2.regs.resValid = false ∧
        t3.regs.state = .idle ∧ t3.regs.resValid = true ∧
        t3.regs.raw = rawTicks s.regs.startOvf s.regs.startTick s.regs.ovf s.regs.cnt) ∧
    (s.regs.state = .awaitingRisingEdge → s.inputs.echoIn = true → s.regs.echoQ = false → NoReset 2 s →
      ∃ t1 t2, step s = .next t1 ∧ step t1 = .next t2 ∧
        t1.regs.state = .awaitingRisingEdge ∧ t2.regs.state = .awaitingFallingEdge ∧
        t2.regs.startTick = s.regs.cnt ∧ t2.regs.startOvf = s.regs.ovf)

/-- R156: the falling transition of a one-cycle echo pulse is not captured: the sequencer awaits it in vain. -/
def Obligations.OneCyclePulseMissesItsEnd : Prop :=
  ∀ s : State, s.regs.Inv → s.regs.state = .awaitingRisingEdge → s.regs.capNew = false →
    s.inputs.echoIn = true → s.regs.echoQ = false → expire s.regs = false → NoReset 2 s →
    ∃ t1, step s = .next t1 ∧ (t1.inputs.echoIn = false →
      ∃ t2, step t1 = .next t2 ∧ t2.regs.state = .awaitingFallingEdge ∧ t2.regs.capNew = false ∧
        t2.regs.echoQ = false ∧ t2.regs.startTick = s.regs.cnt ∧ t2.regs.startOvf = s.regs.ovf)

/-- R170: with the rising transition sampled in the coming cycle, `echo_in` held for `k` ≥ 2 cycles and no deadline
passed before the falling transition is sampled, the result stands three cycles after that transition, and `raw` is
exactly the number of ticks in the `k` cycles of the pulse, wraps of `cnt` and of `ovf` included. -/
def Obligations.EchoPulseIsMeasured : Prop :=
  ∀ (s : State) (k : Nat), s.regs.Inv → s.regs.state = .awaitingRisingEdge → s.regs.capNew = false →
    s.regs.echoQ = false → 2 ≤ k → EchoFallsAt k s → NoDeadline k s → NoReset (k + 3) s →
    ∃ t, Host.Core.run Sys2Proof.core (k + 3) s = .next t ∧ t.regs.state = .idle ∧ t.regs.resValid = true ∧
      t.regs.raw.toNat = ticksIn k s

/-- R96(b), R170: over any run without reset the extended timestamp `{ovf, cnt}` advances by exactly the number of
ticks, modulo 2^32. -/
def Obligations.TimestampCountsTicks : Prop :=
  ∀ (k : Nat) (s t : State), NoReset k s → Host.Core.run Sys2Proof.core k s = .next t →
    timestamp t.regs.ovf t.regs.cnt = (timestamp s.regs.ovf s.regs.cnt + ticksIn k s) % 4294967296
end

