-- ==== Sys2Proof/Laws/State.lean ====
section
/-! SUPPORT. One lemma per field for each named update of the state: the end of a cycle, a word placed on the port, an
accepted BEGIN's writes, the entry to TimedOut. -/

namespace Sys2Proof.Machine

@[simp] theorem State.advance_regs (s : State) (regs : Registers) (out : Outputs) :
    (s.advance regs out).regs = regs := rfl
@[simp] theorem State.advance_stimulus (s : State) (regs : Registers) (out : Outputs) :
    (s.advance regs out).stimulus = s.stimulus.tail := rfl
@[simp] theorem State.advance_cycle (s : State) (regs : Registers) (out : Outputs) :
    (s.advance regs out).cycle = s.cycle + 1 := rfl
@[simp] theorem State.advance_out (s : State) (regs : Registers) (out : Outputs) :
    (s.advance regs out).out = out := rfl

@[simp] theorem State.presenting_regs (s : State) (w : BitVec 32) : (s.presenting w).regs = s.regs := rfl
@[simp] theorem State.presenting_cycle (s : State) (w : BitVec 32) : (s.presenting w).cycle = s.cycle := rfl
@[simp] theorem State.presenting_out (s : State) (w : BitVec 32) : (s.presenting w).out = s.out := rfl
@[simp] theorem State.presenting_rst (s : State) (w : BitVec 32) : (s.presenting w).inputs.rst = false := rfl
@[simp] theorem State.presenting_cmdValid (s : State) (w : BitVec 32) : (s.presenting w).inputs.cmdValid = true := rfl
@[simp] theorem State.presenting_cmd (s : State) (w : BitVec 32) : (s.presenting w).inputs.cmd = w := rfl

@[simp] theorem clearedForBegin_cnt (n : Registers) : (clearedForBegin n).cnt = n.cnt := rfl
@[simp] theorem clearedForBegin_ovf (n : Registers) : (clearedForBegin n).ovf = n.ovf := rfl
@[simp] theorem clearedForBegin_capTick (n : Registers) : (clearedForBegin n).capTick = n.capTick := rfl
@[simp] theorem clearedForBegin_capOvf (n : Registers) : (clearedForBegin n).capOvf = n.capOvf := rfl
@[simp] theorem clearedForBegin_startTick (n : Registers) : (clearedForBegin n).startTick = 0 := rfl
@[simp] theorem clearedForBegin_startOvf (n : Registers) : (clearedForBegin n).startOvf = 0 := rfl
@[simp] theorem clearedForBegin_endTick (n : Registers) : (clearedForBegin n).endTick = 0 := rfl
@[simp] theorem clearedForBegin_endOvf (n : Registers) : (clearedForBegin n).endOvf = 0 := rfl
@[simp] theorem clearedForBegin_raw (n : Registers) : (clearedForBegin n).raw = 0 := rfl
@[simp] theorem clearedForBegin_resDist (n : Registers) : (clearedForBegin n).resDist = 0 := rfl
@[simp] theorem clearedForBegin_state (n : Registers) : (clearedForBegin n).state = .triggering := rfl
@[simp] theorem clearedForBegin_armed (n : Registers) : (clearedForBegin n).armed = .rising := rfl
@[simp] theorem clearedForBegin_capNew (n : Registers) : (clearedForBegin n).capNew = false := rfl
@[simp] theorem clearedForBegin_capEdge (n : Registers) : (clearedForBegin n).capEdge = n.capEdge := rfl
@[simp] theorem clearedForBegin_running (n : Registers) : (clearedForBegin n).running = n.running := rfl
@[simp] theorem clearedForBegin_configured (n : Registers) : (clearedForBegin n).configured = n.configured := rfl
@[simp] theorem clearedForBegin_cfgFault (n : Registers) : (clearedForBegin n).cfgFault = n.cfgFault := rfl
@[simp] theorem clearedForBegin_resValid (n : Registers) : (clearedForBegin n).resValid = false := rfl
@[simp] theorem clearedForBegin_resKind (n : Registers) : (clearedForBegin n).resKind = .none := rfl
@[simp] theorem clearedForBegin_trig (n : Registers) : (clearedForBegin n).trig = true := rfl
@[simp] theorem clearedForBegin_divSel (n : Registers) : (clearedForBegin n).divSel = n.divSel := rfl
@[simp] theorem clearedForBegin_scale (n : Registers) : (clearedForBegin n).scale = n.scale := rfl
@[simp] theorem clearedForBegin_dmin (n : Registers) : (clearedForBegin n).dmin = n.dmin := rfl
@[simp] theorem clearedForBegin_dmax (n : Registers) : (clearedForBegin n).dmax = n.dmax := rfl
@[simp] theorem clearedForBegin_deadline (n : Registers) : (clearedForBegin n).deadline = n.deadline := rfl
@[simp] theorem clearedForBegin_trigTicks (n : Registers) : (clearedForBegin n).trigTicks = n.trigTicks := rfl
@[simp] theorem clearedForBegin_pre (n : Registers) : (clearedForBegin n).pre = n.pre := rfl
@[simp] theorem clearedForBegin_echoQ (n : Registers) : (clearedForBegin n).echoQ = n.echoQ := rfl
@[simp] theorem clearedForBegin_trigCnt (n : Registers) : (clearedForBegin n).trigCnt = 0 := rfl
@[simp] theorem clearedForBegin_waitWraps (n : Registers) : (clearedForBegin n).waitWraps = 0 := rfl

@[simp] theorem enterTimedOut_cnt (n : Registers) : (enterTimedOut n).cnt = n.cnt := rfl
@[simp] theorem enterTimedOut_ovf (n : Registers) : (enterTimedOut n).ovf = n.ovf := rfl
@[simp] theorem enterTimedOut_capTick (n : Registers) : (enterTimedOut n).capTick = n.capTick := rfl
@[simp] theorem enterTimedOut_capOvf (n : Registers) : (enterTimedOut n).capOvf = n.capOvf := rfl
@[simp] theorem enterTimedOut_startTick (n : Registers) : (enterTimedOut n).startTick = n.startTick := rfl
@[simp] theorem enterTimedOut_startOvf (n : Registers) : (enterTimedOut n).startOvf = n.startOvf := rfl
@[simp] theorem enterTimedOut_endTick (n : Registers) : (enterTimedOut n).endTick = n.endTick := rfl
@[simp] theorem enterTimedOut_endOvf (n : Registers) : (enterTimedOut n).endOvf = n.endOvf := rfl
@[simp] theorem enterTimedOut_raw (n : Registers) : (enterTimedOut n).raw = n.raw := rfl
@[simp] theorem enterTimedOut_resDist (n : Registers) : (enterTimedOut n).resDist = 0 := rfl
@[simp] theorem enterTimedOut_state (n : Registers) : (enterTimedOut n).state = .timedOut := rfl
@[simp] theorem enterTimedOut_armed (n : Registers) : (enterTimedOut n).armed = .rising := rfl
@[simp] theorem enterTimedOut_capNew (n : Registers) : (enterTimedOut n).capNew = n.capNew := rfl
@[simp] theorem enterTimedOut_capEdge (n : Registers) : (enterTimedOut n).capEdge = n.capEdge := rfl
@[simp] theorem enterTimedOut_running (n : Registers) : (enterTimedOut n).running = n.running := rfl
@[simp] theorem enterTimedOut_configured (n : Registers) : (enterTimedOut n).configured = n.configured := rfl
@[simp] theorem enterTimedOut_cfgFault (n : Registers) : (enterTimedOut n).cfgFault = n.cfgFault := rfl
@[simp] theorem enterTimedOut_resValid (n : Registers) : (enterTimedOut n).resValid = true := rfl
@[simp] theorem enterTimedOut_resKind (n : Registers) : (enterTimedOut n).resKind = .timeout := rfl
@[simp] theorem enterTimedOut_trig (n : Registers) : (enterTimedOut n).trig = n.trig := rfl
@[simp] theorem enterTimedOut_divSel (n : Registers) : (enterTimedOut n).divSel = n.divSel := rfl
@[simp] theorem enterTimedOut_scale (n : Registers) : (enterTimedOut n).scale = n.scale := rfl
@[simp] theorem enterTimedOut_dmin (n : Registers) : (enterTimedOut n).dmin = n.dmin := rfl
@[simp] theorem enterTimedOut_dmax (n : Registers) : (enterTimedOut n).dmax = n.dmax := rfl
@[simp] theorem enterTimedOut_deadline (n : Registers) : (enterTimedOut n).deadline = n.deadline := rfl
@[simp] theorem enterTimedOut_trigTicks (n : Registers) : (enterTimedOut n).trigTicks = n.trigTicks := rfl
@[simp] theorem enterTimedOut_pre (n : Registers) : (enterTimedOut n).pre = n.pre := rfl
@[simp] theorem enterTimedOut_echoQ (n : Registers) : (enterTimedOut n).echoQ = n.echoQ := rfl
@[simp] theorem enterTimedOut_trigCnt (n : Registers) : (enterTimedOut n).trigCnt = n.trigCnt := rfl
@[simp] theorem enterTimedOut_waitWraps (n : Registers) : (enterTimedOut n).waitWraps = n.waitWraps := rfl

end Sys2Proof.Machine
end

