-- ==== Sys2Proof/Laws/Phases.lean ====
section
/-! SUPPORT. What each phase of a cycle can do, said once (R117): the timer's three registers, the sequencer state by
state, the capture unit. -/

namespace Sys2Proof.Machine

variable (s n : Registers) (echoIn : Bool)

/-- A tick needs the timer running. -/
theorem tick_running (h : tick s = true) : s.running = true := by
  unfold tick at h
  split at h <;> simp_all

/-- With `DIV(div_sel)` = `d`, `tick` is the signal of R94. -/
theorem tick_of_divCycles {d : Nat} (h : divCycles s.divSel = some d) :
    tick s = (s.running && decide (s.pre.toNat = d - 1)) := by
  simp [tick, h]

/-- A wrap is a tick at `cnt` = 65535. -/
theorem wrap_iff : wrap s = true ↔ tick s = true ∧ s.cnt.toNat = 65535 := by
  simp [wrap, Config.timerRange]

theorem wrap_tick (h : wrap s = true) : tick s = true := ((wrap_iff s).1 h).1

/-- Phase 1 writes `pre`, `cnt` and `ovf`, and nothing else. -/
theorem timerPhase_eq :
    timerPhase s n =
      { n with
        pre := if s.running then (if tick s then 0 else preAdvanced s) else n.pre
        cnt := if tick s then s.cnt + 1 else n.cnt
        ovf := if wrap s then s.ovf + 1 else n.ovf } := by
  have ht := tick_running s
  unfold timerPhase wrapOp tickOp
  cases hr : s.running <;> cases hk : tick s <;> cases hw : wrap s <;> simp_all

theorem awaiting_iff :
    awaiting s = true ↔ s.state = .awaitingRisingEdge ∨ s.state = .awaitingFallingEdge := by
  unfold awaiting want
  cases s.state <;> simp

/-- In Idle and TimedOut the sequencer does nothing. -/
theorem sequencerPhase_resting (h : busy s = false) : sequencerPhase s n = n := by
  unfold busy at h
  cases hs : s.state <;> simp_all [sequencerPhase, computeOp, timeoutOp, waitWrapOp, discardOp, acceptFallOp,
    acceptRiseOp, trigStepOp, expire, awaiting, discard, want]

theorem sequencerPhase_triggering (h : s.state = .triggering) : sequencerPhase s n = trigStepOp s n := by
  simp [sequencerPhase, computeOp, timeoutOp, waitWrapOp, discardOp, acceptFallOp, acceptRiseOp, expire, awaiting,
    discard, want, h]

theorem sequencerPhase_computing (h : s.state = .computing) : sequencerPhase s n = computeOp s n := by
  simp [sequencerPhase, timeoutOp, waitWrapOp, discardOp, acceptFallOp, acceptRiseOp, trigStepOp, expire, awaiting,
    discard, want, h]

theorem accept_not_discard (h : accept s = true) : discard s = false := by
  unfold accept at h
  unfold discard
  cases hw : want s <;> simp_all

/-- Accepting the rising edge. -/
theorem sequencerPhase_acceptRise (h : s.state = .awaitingRisingEdge) (ha : accept s = true) :
    sequencerPhase s n = { n with startTick := s.capTick, startOvf := s.capOvf, capNew := false, armed := .falling,
                                  state := .awaitingFallingEdge, waitWraps := 0 } := by
  simp [sequencerPhase, computeOp, timeoutOp, waitWrapOp, discardOp, acceptFallOp, acceptRiseOp, trigStepOp, expire,
    accept_not_discard s ha, ha, h]

/-- Accepting the falling edge. -/
theorem sequencerPhase_acceptFall (h : s.state = .awaitingFallingEdge) (ha : accept s = true) :
    sequencerPhase s n = { n with endTick := s.capTick, endOvf := s.capOvf, capNew := false, armed := .rising,
                                  state := .computing, waitWraps := 0 } := by
  simp [sequencerPhase, computeOp, timeoutOp, waitWrapOp, discardOp, acceptFallOp, acceptRiseOp, trigStepOp, expire,
    accept_not_discard s ha, ha, h]

theorem discardOp_eq : discardOp s n = { n with capNew := n.capNew && !discard s } := by
  unfold discardOp
  cases discard s <;> simp

theorem expire_wrap (h : expire s = true) : wrap s = true := by
  simp only [expire, Bool.and_eq_true] at h
  exact h.1.2

theorem waitWrapOp_waiting (h : awaiting s = true) (ha : accept s = false) (he : expire s = false) :
    waitWrapOp s n = { n with waitWraps := if wrap s then s.waitWraps + 1 else n.waitWraps } := by
  simp only [waitWrapOp, h, ha, he]
  cases wrap s <;> rfl

theorem waitWrapOp_expire (he : expire s = true) : waitWrapOp s n = n := by
  simp [waitWrapOp, he]

/-- An awaiting state that accepts nothing: a wrong event is discarded, and a wrap counts or times out. -/
theorem sequencerPhase_waiting (h : awaiting s = true) (ha : accept s = false) :
    sequencerPhase s n =
      if expire s then enterTimedOut { n with capNew := n.capNew && !discard s }
      else { n with capNew := n.capNew && !discard s,
                    waitWraps := if wrap s then s.waitWraps + 1 else n.waitWraps } := by
  have hs := (awaiting_iff s).1 h
  have h1 : trigStepOp s n = n := if_neg (by rcases hs with h | h <;> simp [h])
  have h2 : acceptRiseOp s n = n := if_neg (by simp [ha])
  have h3 : acceptFallOp s n = n := if_neg (by simp [ha])
  have h4 : ∀ m, computeOp s m = m := fun m => if_neg (by rcases hs with h | h <;> simp [h])
  rw [sequencerPhase, h4, h1, h2, h3, discardOp_eq]
  cases he : expire s
  · rw [waitWrapOp_waiting _ _ h ha he]; simp [timeoutOp, he]
  · rw [waitWrapOp_expire _ _ he]; simp [timeoutOp, he]

/-- Phase 4 samples `echo_in` and, on a hit, latches the pair held in the cycle. -/
theorem captureOp_eq :
    captureOp s echoIn n =
      { n with
        echoQ := echoIn
        capTick := if hit s echoIn then s.cnt else n.capTick
        capOvf := if hit s echoIn then s.ovf else n.capOvf
        capEdge := if hit s echoIn then s.armed else n.capEdge
        capNew := hit s echoIn || n.capNew } := by
  unfold captureOp
  cases hit s echoIn <;> simp

end Sys2Proof.Machine
end

