-- ==== Sys2Proof/Laws/Cycle.lean ====
section
/-! SUPPORT. What a cycle can do, said once: every command is a cycle with an effect, every effect is nothing or one of
thirteen writes, and every step is a reset cycle or a cycle with at most one effect. -/

namespace Sys2Proof.Machine

/-- The effect of each command: its rule of files 40 to 43 behind its meaning. -/
def effectOf : Instr → Registers → Effect
  | .nop, _ => answer .ok 0 0
  | .configure d, s => configureEffect d s
  | .start, s => startEffect s
  | .stop, s => stopEffect s
  | .setEdge e, s => setEdgeEffect e s
  | .pollCap, s => pollCapEffect s
  | .rdOvf, s => rdOvfEffect s
  | .rdCnt, s => rdCntEffect s
  | .begin, s => beginEffect s
  | .rdResult, s => rdResultEffect s
  | .convert r, s => convertEffect r s
  | .setScale k, s => setScaleEffect k s
  | .setMin d, s => setMinEffect d s
  | .setMax d, s => setMaxEffect d s
  | .setDeadline w, s => setDeadlineEffect w s
  | .setTrig w, s => setTrigEffect w s
  | .rdReg idx, s => rdRegEffect idx s

/-- A command's cycle is the cycle with its effect. -/
theorem exec_eq (i : Instr) (s : State) : exec i s = commandCycle s (effectOf i s.regs) := by
  cases i <;> rfl

/-- The next state of a cycle with an effect or without one. -/
theorem runCycle_eq (s : State) (e : Option Effect) :
    runCycle s e = .next (s.advance (cycleRegs s.regs s.inputs.echoIn e) (cycleOutputs s.regs e)) := rfl

/-- The registers after a cycle, the sequencer and the timer having written theirs: a command's write, the capture,
and an accepted BEGIN's clear on top. -/
theorem cycleRegs_some (s : Registers) (echoIn : Bool) (e : Effect) :
    cycleRegs s echoIn (some e) =
      let n := captureOp s echoIn (e.write (sequencerPhase s (timerPhase s s)))
      if e.dropCapture then { n with capNew := false } else n := rfl

theorem autonomous_eq (s : Registers) (echoIn : Bool) :
    autonomous s echoIn = captureOp s echoIn (sequencerPhase s (timerPhase s s)) := rfl

/-- A command that writes nothing leaves what the autonomous operations leave. -/
theorem cycleRegs_answer (s : Registers) (echoIn : Bool) (st : Status) (tag : BitVec 2) (data : BitVec 32) :
    cycleRegs s echoIn (some (answer st tag data)) = autonomous s echoIn := rfl

/-- Every effect a command can have on the registers `s`: nothing written (an answer or a rejection), or one of the
writes of files 40 to 43, with what its checks establish. -/
inductive CommandEffect (s : Registers) : Instr → Effect → Prop where
  | answered (i : Instr) (st : Status) (tag : BitVec 2) (data : BitVec 32) : CommandEffect s i (answer st tag data)
  | configured (d : BitVec 3) (hb : busy s = false) (hf : s.cfgFault = false) (hd : divSelLegal d = true) :
      CommandEffect s (.configure d) (done (fun n => { n with divSel := d, configured := true, pre := 0 }))
  | faulted (d : BitVec 3) (hb : busy s = false) (hf : s.cfgFault = false) (hd : divSelLegal d = false) :
      CommandEffect s (.configure d) configFault
  | started (hb : busy s = false) (hf : s.cfgFault = false) (hc : s.configured = true) :
      CommandEffect s .start (done (fun n => { n with running := true }))
  | stopped (hb : busy s = false) : CommandEffect s .stop (done (fun n => { n with running := false }))
  | edgeSet (e : Edge) (hb : busy s = false) : CommandEffect s (.setEdge e) (done (fun n => { n with armed := e }))
  | polled (hb : busy s = false) (hn : s.capNew = true) : CommandEffect s .pollCap (capturedEvent s)
  | begun (hb : busy s = false) (hf : s.cfgFault = false) (hc : s.configured = true) (hr : s.running = true) :
      CommandEffect s .begin acceptedBegin
  | fetched (hv : s.resValid = true) : CommandEffect s .rdResult (fetchedResult s)
  | scaleSet (k : BitVec 24) (hb : busy s = false) :
      CommandEffect s (.setScale k) (done (fun n => { n with scale := k }))
  | minSet (d : BitVec 16) (hb : busy s = false) : CommandEffect s (.setMin d) (done (fun n => { n with dmin := d }))
  | maxSet (d : BitVec 16) (hb : busy s = false) : CommandEffect s (.setMax d) (done (fun n => { n with dmax := d }))
  | deadlineSet (w : BitVec 16) (hb : busy s = false) (hw : w ≠ 0) :
      CommandEffect s (.setDeadline w) (done (fun n => { n with deadline := w }))
  | trigSet (w : BitVec 16) (hb : busy s = false) (hw : w ≠ 0) :
      CommandEffect s (.setTrig w) (done (fun n => { n with trigTicks := w }))

/-- What holds of the rejection, and of the effect where the check passes, holds of the checked effect. -/
theorem ifNotBusy_lift (s : Registers) {P : Effect → Prop} {e : Effect} (hr : P (reject .errBusy))
    (he : busy s = false → P e) : P (ifNotBusy s e) := by
  unfold ifNotBusy
  cases h : busy s <;> simp_all

theorem ifNoFault_lift (s : Registers) {P : Effect → Prop} {e : Effect} (hr : P (reject .errFault))
    (he : s.cfgFault = false → P e) : P (ifNoFault s e) := by
  unfold ifNoFault
  cases h : s.cfgFault <;> simp_all

theorem ifReady_lift (r : Bool) {P : Effect → Prop} {e : Effect} (hr : P (reject .errNotReady))
    (he : r = true → P e) : P (ifReady r e) := by
  unfold ifReady
  cases r <;> simp_all

theorem ifLegal_lift (r : Bool) {P : Effect → Prop} {e : Effect} (hr : P (reject .errBadArg))
    (he : r = true → P e) : P (ifLegal r e) := by
  unfold ifLegal
  cases r <;> simp_all

theorem CommandEffect.rejected (s : Registers) (i : Instr) (st : Status) : CommandEffect s i (reject st) :=
  .answered i st 0 0

/-- A command's effect is one of these. -/
theorem effectOf_cases (i : Instr) (s : Registers) : CommandEffect s i (effectOf i s) := by
  cases i with
  | nop => exact .answered ..
  | rdOvf => exact .answered ..
  | rdCnt => exact .answered ..
  | convert r => exact .answered ..
  | rdReg idx =>
    show CommandEffect s _ (rdRegEffect idx s)
    unfold rdRegEffect
    cases view s idx with
    | none => exact .rejected ..
    | some v => exact .answered ..
  | configure d =>
    refine ifNotBusy_lift s (.rejected ..) fun hb => ifNoFault_lift s (.rejected ..) fun hf => ?_
    cases hd : divSelLegal d with
    | true => exact .configured d hb hf hd
    | false => exact .faulted d hb hf hd
  | start =>
    exact ifNotBusy_lift s (.rejected ..) fun hb => ifNoFault_lift s (.rejected ..) fun hf =>
      ifReady_lift _ (.rejected ..) fun hc => .started hb hf hc
  | stop => exact ifNotBusy_lift s (.rejected ..) fun hb => .stopped hb
  | setEdge e => exact ifNotBusy_lift s (.rejected ..) fun hb => .edgeSet e hb
  | pollCap =>
    refine ifNotBusy_lift s (.rejected ..) fun hb => ?_
    cases hn : s.capNew with
    | true => exact .polled hb hn
    | false => exact .rejected ..
  | begin =>
    exact ifNotBusy_lift s (.rejected ..) fun hb => ifNoFault_lift s (.rejected ..) fun hf =>
      ifReady_lift _ (.rejected ..) fun hc => .begun hb hf (Bool.and_eq_true_iff.1 hc).1 (Bool.and_eq_true_iff.1 hc).2
  | rdResult =>
    show CommandEffect s _ (rdResultEffect s)
    unfold rdResultEffect
    cases hv : s.resValid with
    | true => exact .fetched hv
    | false => exact .rejected ..
  | setScale k => exact ifNotBusy_lift s (.rejected ..) fun hb => .scaleSet k hb
  | setMin d => exact ifNotBusy_lift s (.rejected ..) fun hb => .minSet d hb
  | setMax d => exact ifNotBusy_lift s (.rejected ..) fun hb => .maxSet d hb
  | setDeadline w =>
    exact ifNotBusy_lift s (.rejected ..) fun hb => ifLegal_lift _ (.rejected ..) fun hw =>
      .deadlineSet w hb (by simpa [countLegal] using hw)
  | setTrig w =>
    exact ifNotBusy_lift s (.rejected ..) fun hb => ifLegal_lift _ (.rejected ..) fun hw =>
      .trigSet w hb (by simpa [countLegal] using hw)

/-- What the port presents in a cycle without reset, and the effect the cycle then has. -/
inductive PortEffect (s : State) : Option Effect → Prop where
  | nothing (h : presented s.inputs = .nothing) : PortEffect s none
  | command (i : Instr) (h : presented s.inputs = .word (.command i)) : PortEffect s (some (effectOf i s.regs))
  | illegal (h : presented s.inputs = .word .illegalOpcode) : PortEffect s (some (reject .errIllegal))
  | reserved (h : presented s.inputs = .word .reservedBits) : PortEffect s (some (reject .errBadArg))

/-- Without reset a step is a cycle with the effect of what the port presents. -/
theorem step_run (s : State) (h : s.inputs.rst = false) :
    ∃ e, PortEffect s e ∧
      step s = .next (s.advance (cycleRegs s.regs s.inputs.echoIn e) (cycleOutputs s.regs e)) := by
  unfold step
  cases hp : presented s.inputs with
  | reset => simp [presented, h] at hp; split at hp <;> simp at hp
  | nothing => exact ⟨none, .nothing hp, rfl⟩
  | word d =>
    cases d with
    | command i => exact ⟨_, .command i hp, exec_eq i s⟩
    | illegalOpcode => exact ⟨_, .illegal hp, rfl⟩
    | reservedBits => exact ⟨_, .reserved hp, rfl⟩

/-- With reset a step is the reset cycle. -/
theorem step_reset (s : State) (h : s.inputs.rst = true) :
    step s = .next (s.advance Registers.reset (resetOutputs s.regs)) := by
  simp [step, presented, h, resetCycle]

/-- Every step is one of the two. -/
theorem step_cases {s t : State} (h : step s = .next t) :
    (s.inputs.rst = true ∧ t = s.advance Registers.reset (resetOutputs s.regs)) ∨
    (s.inputs.rst = false ∧ ∃ e, PortEffect s e ∧
      t = s.advance (cycleRegs s.regs s.inputs.echoIn e) (cycleOutputs s.regs e)) := by
  cases hr : s.inputs.rst with
  | true =>
    rw [step_reset s hr] at h
    exact .inl ⟨rfl, (Host.Outcome.next.inj h).symm⟩
  | false =>
    obtain ⟨e, he, hs⟩ := step_run s hr
    rw [hs] at h
    exact .inr ⟨rfl, e, he, (Host.Outcome.next.inj h).symm⟩

end Sys2Proof.Machine
end

