-- ==== Sys2Proof/Laws/Encoding.lean ====
section
/-! SUPPORT. Words and fields as numbers (R59 to R62): the two fields of a command word, the reserved bits, the
concatenations of the responses and read views, and the words that run a command. -/

namespace Sys2Proof.Machine

/-- The fields of a command word as quotient and remainder. -/
theorem fields_toNat (w : BitVec 32) :
    (opcodeField w).toNat = w.toNat / 16777216 ∧ (immField w).toNat = w.toNat % 16777216 := by
  constructor
  · simp [opcodeField, BitVec.extractLsb'_toNat, Nat.shiftRight_eq_div_pow]; omega
  · simp [immField, BitVec.extractLsb'_toNat]

/-- The reserved bits are 0 exactly where the immediate is below the format's operand count. -/
theorem reservedZero_iff (f : Format) (imm : BitVec 24) : reservedZero f imm = true ↔ imm.toNat < 2 ^ f.operandBits := by
  simp only [reservedZero, beq_iff_eq, ← BitVec.toNat_inj, BitVec.toNat_ushiftRight, Nat.shiftRight_eq_div_pow]
  simp [Nat.div_eq_zero_iff]

/-- A concatenation as a number. -/
theorem append_toNat {a b : Nat} (x : BitVec a) (y : BitVec b) : (x ++ y).toNat = x.toNat * 2 ^ b + y.toNat := by
  rw [BitVec.toNat_append, ← Nat.shiftLeft_add_eq_or_of_lt y.isLt, Nat.shiftLeft_eq]

theorem flagBit_toNat (b : Bool) : (flagBit b).toNat = b.toNat := by cases b <;> rfl

theorem zext32_eq (v : BitVec 16) : zext32 v = BitVec.ofNat 32 v.toNat := by
  apply BitVec.eq_of_toNat_eq; simp [zext32]

theorem pair_eq (a b : BitVec 16) : a ++ b = BitVec.ofNat 32 (a.toNat * 65536 + b.toNat) := by
  apply BitVec.eq_of_toNat_eq
  rw [append_toNat, BitVec.toNat_ofNat]
  omega

/-- The shift of the converter as a division. -/
theorem distanceCm_eq (raw scale : Nat) : distanceCm raw scale = (raw * scale + 32768) / 65536 := by
  simp [distanceCm, Config.scaleShift, Nat.shiftRight_eq_div_pow]

/-- An opcode's row decides what its words do. -/
theorem wordRuns_of {op count : Nat} {cmd : Nat → Instr} {f : Format} {b : BitVec 24 → Instr}
    (hop : op < 256) (hrow : opcodeRow (BitVec.ofNat 8 op) = some (f, b)) (hc : count = 2 ^ f.operandBits)
    (hb : ∀ imm : BitVec 24, imm.toNat < count → b imm = cmd imm.toNat) : WordRuns op count cmd := by
  intro s hr hv ho
  obtain ⟨h1, h2⟩ := fields_toNat s.inputs.cmd
  have h3 : opcodeField s.inputs.cmd = BitVec.ofNat 8 op := by
    apply BitVec.eq_of_toNat_eq; rw [h1, ho]; simp; omega
  have hd : decode s.inputs.cmd =
      if reservedZero f (immField s.inputs.cmd) then .command (b (immField s.inputs.cmd)) else .reservedBits := by
    simp [decode, h3, hrow]
  simp only [step, presented, hr, hv, hd]
  by_cases hlt : s.inputs.cmd.toNat % 16777216 < count
  · have : reservedZero f (immField s.inputs.cmd) = true := by rw [reservedZero_iff, h2, ← hc]; exact hlt
    simp [this, hlt, hb _ (h2 ▸ hlt), h2]
  · have : reservedZero f (immField s.inputs.cmd) = false := by
      rw [Bool.eq_false_iff, ne_eq, reservedZero_iff, h2, ← hc]; exact hlt
    simp [this, hlt]; rfl

/-- The cycle of a command that only answers, and of one that is rejected. -/
theorem commandCycle_answer (s : State) (st : Status) (tag : BitVec 2) (data : BitVec 32) :
    commandCycle s (answer st tag data) = answered s ⟨st, tag, data⟩ := rfl

theorem commandCycle_reject (s : State) (st : Status) : commandCycle s (reject st) = rejected s st := rfl

/-- The cycle of a command answered (OK, 0, 0) whose writes the capture unit does not touch. -/
theorem commandCycle_done (s : State) (w : Registers → Registers)
    (h : ∀ n, captureOp s.regs s.inputs.echoIn (w n) = w (captureOp s.regs s.inputs.echoIn n)) :
    commandCycle s (done w) = accepted s (w (autonomous s.regs s.inputs.echoIn)) := by
  simp only [commandCycle, runCycle, cycleRegs, commandPhase, dropPhase, done, accepted, autonomous, h]
  rfl

end Sys2Proof.Machine
end

