-- ==== Sys2Proof/Laws/Frames.lean ====
section
/-! SUPPORT. Who writes which register in a cycle without reset: the timer and the sequencer (`hardwarePhases`), the
capture unit, and the one command on the port. -/

namespace Sys2Proof.Machine

/-- The registers when the timer and the sequencer have written theirs (phases 1 and 2 of R117). -/
def hardwarePhases (s : Registers) : Registers := sequencerPhase s (timerPhase s s)

/-- The registers the sequencer never writes (R98 to R104). -/
structure SequencerKeeps (n m : Registers) : Prop where
  cnt : m.cnt = n.cnt
  ovf : m.ovf = n.ovf
  pre : m.pre = n.pre
  capTick : m.capTick = n.capTick
  capOvf : m.capOvf = n.capOvf
  capEdge : m.capEdge = n.capEdge
  echoQ : m.echoQ = n.echoQ
  running : m.running = n.running
  configured : m.configured = n.configured
  cfgFault : m.cfgFault = n.cfgFault
  divSel : m.divSel = n.divSel
  scale : m.scale = n.scale
  dmin : m.dmin = n.dmin
  dmax : m.dmax = n.dmax
  deadline : m.deadline = n.deadline
  trigTicks : m.trigTicks = n.trigTicks

theorem SequencerKeeps.rfl' (n : Registers) : SequencerKeeps n n := by constructor <;> rfl

theorem SequencerKeeps.trans {a b c : Registers} (h : SequencerKeeps a b) (k : SequencerKeeps b c) :
    SequencerKeeps a c where
  cnt := k.cnt.trans h.cnt
  ovf := k.ovf.trans h.ovf
  pre := k.pre.trans h.pre
  capTick := k.capTick.trans h.capTick
  capOvf := k.capOvf.trans h.capOvf
  capEdge := k.capEdge.trans h.capEdge
  echoQ := k.echoQ.trans h.echoQ
  running := k.running.trans h.running
  configured := k.configured.trans h.configured
  cfgFault := k.cfgFault.trans h.cfgFault
  divSel := k.divSel.trans h.divSel
  scale := k.scale.trans h.scale
  dmin := k.dmin.trans h.dmin
  dmax := k.dmax.trans h.dmax
  deadline := k.deadline.trans h.deadline
  trigTicks := k.trigTicks.trans h.trigTicks

theorem sequencerPhase_keeps (s n : Registers) : SequencerKeeps n (sequencerPhase s n) := by
  have h1 : SequencerKeeps n (trigStepOp s n) := by
    unfold trigStepOp; split
    · split <;> constructor <;> rfl
    · exact .rfl' _
  have h2 : ∀ n, SequencerKeeps n (acceptRiseOp s n) := fun n => by
    unfold acceptRiseOp; split <;> constructor <;> rfl
  have h3 : ∀ n, SequencerKeeps n (acceptFallOp s n) := fun n => by
    unfold acceptFallOp; split <;> constructor <;> rfl
  have h4 : ∀ n, SequencerKeeps n (discardOp s n) := fun n => by
    unfold discardOp; split <;> constructor <;> rfl
  have h5 : ∀ n, SequencerKeeps n (waitWrapOp s n) := fun n => by
    unfold waitWrapOp; split <;> constructor <;> rfl
  have h6 : ∀ n, SequencerKeeps n (timeoutOp s n) := fun n => by
    unfold timeoutOp enterTimedOut; split <;> constructor <;> rfl
  have h7 : ∀ n, SequencerKeeps n (computeOp s n) := fun n => by
    unfold computeOp; split <;> constructor <;> rfl
  exact ((((((h1.trans (h2 _)).trans (h3 _)).trans (h4 _)).trans (h5 _)).trans (h6 _)).trans (h7 _))

/-- What the timer and the sequencer leave in the timer's, the capture unit's and the control registers. -/
theorem hardwarePhases_cnt (s : Registers) : (hardwarePhases s).cnt = if tick s then s.cnt + 1 else s.cnt := by
  rw [hardwarePhases, (sequencerPhase_keeps _ _).cnt, timerPhase_eq]

theorem hardwarePhases_ovf (s : Registers) : (hardwarePhases s).ovf = if wrap s then s.ovf + 1 else s.ovf := by
  rw [hardwarePhases, (sequencerPhase_keeps _ _).ovf, timerPhase_eq]

theorem hardwarePhases_pre (s : Registers) :
    (hardwarePhases s).pre = if s.running then (if tick s then 0 else preAdvanced s) else s.pre := by
  rw [hardwarePhases, (sequencerPhase_keeps _ _).pre, timerPhase_eq]

@[simp] theorem hardwarePhases_capTick (s : Registers) : (hardwarePhases s).capTick = s.capTick := by
  rw [hardwarePhases, (sequencerPhase_keeps _ _).capTick, timerPhase_eq]
@[simp] theorem hardwarePhases_capOvf (s : Registers) : (hardwarePhases s).capOvf = s.capOvf := by
  rw [hardwarePhases, (sequencerPhase_keeps _ _).capOvf, timerPhase_eq]
@[simp] theorem hardwarePhases_capEdge (s : Registers) : (hardwarePhases s).capEdge = s.capEdge := by
  rw [hardwarePhases, (sequencerPhase_keeps _ _).capEdge, timerPhase_eq]
@[simp] theorem hardwarePhases_running (s : Registers) : (hardwarePhases s).running = s.running := by
  rw [hardwarePhases, (sequencerPhase_keeps _ _).running, timerPhase_eq]
@[simp] theorem hardwarePhases_configured (s : Registers) : (hardwarePhases s).configured = s.configured := by
  rw [hardwarePhases, (sequencerPhase_keeps _ _).configured, timerPhase_eq]
@[simp] theorem hardwarePhases_cfgFault (s : Registers) : (hardwarePhases s).cfgFault = s.cfgFault := by
  rw [hardwarePhases, (sequencerPhase_keeps _ _).cfgFault, timerPhase_eq]
@[simp] theorem hardwarePhases_divSel (s : Registers) : (hardwarePhases s).divSel = s.divSel := by
  rw [hardwarePhases, (sequencerPhase_keeps _ _).divSel, timerPhase_eq]
@[simp] theorem hardwarePhases_scale (s : Registers) : (hardwarePhases s).scale = s.scale := by
  rw [hardwarePhases, (sequencerPhase_keeps _ _).scale, timerPhase_eq]
@[simp] theorem hardwarePhases_dmin (s : Registers) : (hardwarePhases s).dmin = s.dmin := by
  rw [hardwarePhases, (sequencerPhase_keeps _ _).dmin, timerPhase_eq]
@[simp] theorem hardwarePhases_dmax (s : Registers) : (hardwarePhases s).dmax = s.dmax := by
  rw [hardwarePhases, (sequencerPhase_keeps _ _).dmax, timerPhase_eq]
@[simp] theorem hardwarePhases_deadline (s : Registers) : (hardwarePhases s).deadline = s.deadline := by
  rw [hardwarePhases, (sequencerPhase_keeps _ _).deadline, timerPhase_eq]
@[simp] theorem hardwarePhases_trigTicks (s : Registers) : (hardwarePhases s).trigTicks = s.trigTicks := by
  rw [hardwarePhases, (sequencerPhase_keeps _ _).trigTicks, timerPhase_eq]

/-- What the timer and the sequencer leave, by the sequencer's state: at rest, in the trigger pulse, on an accepted
edge, waiting or timing out, computing. -/
theorem hardwarePhases_resting (s : Registers) (h : busy s = false) : hardwarePhases s = timerPhase s s :=
  sequencerPhase_resting s _ h

theorem hardwarePhases_triggering (s : Registers) (h : s.state = .triggering) :
    hardwarePhases s = trigStepOp s (timerPhase s s) := sequencerPhase_triggering s _ h

theorem hardwarePhases_computing (s : Registers) (h : s.state = .computing) :
    hardwarePhases s = computeOp s (timerPhase s s) := sequencerPhase_computing s _ h

theorem awaiting_busy {s : Registers} (h : awaiting s = true) : busy s = true := by
  rcases (awaiting_iff s).1 h with h | h <;> simp [busy, h]

/-- The pending flag after the sequencer: every event of an awaiting state is accepted or discarded. -/
theorem hardwarePhases_capNew (s : Registers) :
    (hardwarePhases s).capNew = (s.capNew && !accept s && !discard s) := by
  unfold hardwarePhases
  have ht : (timerPhase s s).capNew = s.capNew := by rw [timerPhase_eq]
  cases hs : s.state with
  | idle => rw [sequencerPhase_resting s _ (by simp [busy, hs]), ht]; simp [accept, discard, want, hs]
  | timedOut => rw [sequencerPhase_resting s _ (by simp [busy, hs]), ht]; simp [accept, discard, want, hs]
  | triggering =>
    rw [sequencerPhase_triggering s _ hs]
    simp only [accept, discard, want, hs, trigStepOp, timerPhase_eq]
    split <;> (try split) <;> simp
  | computing =>
    rw [sequencerPhase_computing s _ hs]
    simp [accept, discard, want, hs, computeOp, timerPhase_eq]
  | awaitingRisingEdge =>
    cases ha : accept s
    · rw [sequencerPhase_waiting s _ (by simp [awaiting, want, hs]) ha]; split <;> simp [timerPhase_eq]
    · rw [sequencerPhase_acceptRise s _ hs ha]; simp
  | awaitingFallingEdge =>
    cases ha : accept s
    · rw [sequencerPhase_waiting s _ (by simp [awaiting, want, hs]) ha]; split <;> simp [timerPhase_eq]
    · rw [sequencerPhase_acceptFall s _ hs ha]; simp

/-- The registers that only the hardware and BEGIN write. -/
structure HardwareFrame (s : State) (r : Registers) : Prop where
  startTick : r.startTick = (hardwarePhases s.regs).startTick
  startOvf : r.startOvf = (hardwarePhases s.regs).startOvf
  endTick : r.endTick = (hardwarePhases s.regs).endTick
  endOvf : r.endOvf = (hardwarePhases s.regs).endOvf
  raw : r.raw = (hardwarePhases s.regs).raw
  resDist : r.resDist = (hardwarePhases s.regs).resDist
  resKind : r.resKind = (hardwarePhases s.regs).resKind
  state : r.state = (hardwarePhases s.regs).state
  trig : r.trig = (hardwarePhases s.regs).trig
  trigCnt : r.trigCnt = (hardwarePhases s.regs).trigCnt
  waitWraps : r.waitWraps = (hardwarePhases s.regs).waitWraps

/-- The registers that no command writes: the timer's counts, and the capture unit's sample and pair. -/
structure CaptureFrame (s : State) (r : Registers) : Prop where
  cnt : r.cnt = (hardwarePhases s.regs).cnt
  ovf : r.ovf = (hardwarePhases s.regs).ovf
  echoQ : r.echoQ = s.inputs.echoIn
  capTick : r.capTick = if hit s.regs s.inputs.echoIn then s.regs.cnt else s.regs.capTick
  capOvf : r.capOvf = if hit s.regs s.inputs.echoIn then s.regs.ovf else s.regs.capOvf
  capEdge : r.capEdge = if hit s.regs s.inputs.echoIn then s.regs.armed else s.regs.capEdge

theorem hardwareFrame {s : State} {e : Option Effect} (he : PortEffect s e) (hb : ¬ BeginAccepted s) :
    HardwareFrame s (cycleRegs s.regs s.inputs.echoIn e) := by
  cases he with
  | command i hp =>
    have hc := effectOf_cases i s.regs
    generalize effectOf i s.regs = e at hc
    cases hc with
    | begun h1 h2 h3 h4 => exact absurd ⟨hp, h1, h2, h3, h4⟩ hb
    | _ =>
      constructor <;> simp [cycleRegs, commandPhase, dropPhase, captureOp_eq, answer, done, configFault,
        capturedEvent, fetchedResult, hardwarePhases]
  | _ => constructor <;> simp [cycleRegs, commandPhase, dropPhase, captureOp_eq, reject, answer, hardwarePhases]

theorem captureFrame {s : State} {e : Option Effect} (he : PortEffect s e) :
    CaptureFrame s (cycleRegs s.regs s.inputs.echoIn e) := by
  have h1 := hardwarePhases_capTick s.regs
  have h2 := hardwarePhases_capOvf s.regs
  have h3 := hardwarePhases_capEdge s.regs
  unfold hardwarePhases at h1 h2 h3
  cases he with
  | command i hp =>
    have hc := effectOf_cases i s.regs
    generalize effectOf i s.regs = e at hc
    cases hc <;> constructor <;> simp [cycleRegs, commandPhase, dropPhase, captureOp_eq, answer, done, configFault,
      capturedEvent, fetchedResult, hardwarePhases, acceptedBegin, h1, h2, h3]
  | _ =>
    constructor <;> simp [cycleRegs, commandPhase, dropPhase, captureOp_eq, reject, answer, hardwarePhases, h1, h2, h3]

/-- The effect of a presented command. -/
theorem effect_of_presents {s : State} {e : Option Effect} {i : Instr} (he : PortEffect s e) (hi : Presents s i) :
    e = some (effectOf i s.regs) := by
  unfold Presents at hi
  cases he with
  | command j hp => rw [hi] at hp; simp at hp; rw [hp]
  | _ h => rw [hi] at h; simp at h

theorem effect_of_begin {s : State} {e : Option Effect} (he : PortEffect s e) (hb : BeginAccepted s) :
    e = some acceptedBegin := by
  obtain ⟨h1, h2, h3, h4, h5⟩ := hb
  rw [effect_of_presents he h1]
  simp [effectOf, beginEffect, ifNotBusy, ifNoFault, ifReady, h2, h3, h4, h5]

/-- The registers after an accepted BEGIN. -/
theorem cycleRegs_begin (s : Registers) (echoIn : Bool) :
    cycleRegs s echoIn (some acceptedBegin) = clearedForBegin (captureOp s echoIn (hardwarePhases s)) := by
  simp [cycleRegs, commandPhase, dropPhase, acceptedBegin, captureOp_eq, clearedForBegin, hardwarePhases]

theorem busy_not_begin {s : State} (h : busy s.regs = true) : ¬ BeginAccepted s := fun hb => by
  rw [hb.2.1] at h; simp at h

/-- `cap_new` without an accepted BEGIN: a capture's set wins, POLLCAP's clear wins over what the sequencer leaves. -/
theorem capNew_frame {s : State} {e : Option Effect} (he : PortEffect s e) (hb : ¬ BeginAccepted s) :
    (Presents s .pollCap ∧ busy s.regs = false ∧ s.regs.capNew = true ∧
      (cycleRegs s.regs s.inputs.echoIn e).capNew = hit s.regs s.inputs.echoIn) ∨
    (¬ (Presents s .pollCap ∧ busy s.regs = false ∧ s.regs.capNew = true) ∧
      (cycleRegs s.regs s.inputs.echoIn e).capNew =
        (hit s.regs s.inputs.echoIn || (hardwarePhases s.regs).capNew)) := by
  by_cases hp : Presents s .pollCap ∧ busy s.regs = false ∧ s.regs.capNew = true
  · refine .inl ⟨hp.1, hp.2.1, hp.2.2, ?_⟩
    rw [effect_of_presents he hp.1]
    simp [effectOf, pollCapEffect, ifNotBusy, hp.2.1, hp.2.2, cycleRegs, commandPhase, dropPhase, captureOp_eq,
      capturedEvent]
  · refine .inr ⟨hp, ?_⟩
    cases he with
    | command i h =>
      have hc := effectOf_cases i s.regs
      generalize effectOf i s.regs = e at hc
      cases hc with
      | begun h1 h2 h3 h4 => exact absurd ⟨h, h1, h2, h3, h4⟩ hb
      | polled h1 h2 => exact absurd ⟨h, h1, h2⟩ hp
      | _ => simp [cycleRegs, commandPhase, dropPhase, captureOp_eq, answer, done, configFault, fetchedResult,
          hardwarePhases]
    | _ => simp [cycleRegs, commandPhase, dropPhase, captureOp_eq, reject, answer, hardwarePhases]

/-- While busy, the capture unit and the sequencer alone write `cap_new`. -/
theorem capNew_busy {s : State} {e : Option Effect} (he : PortEffect s e) (hb : busy s.regs = true) :
    (cycleRegs s.regs s.inputs.echoIn e).capNew =
      (hit s.regs s.inputs.echoIn || (s.regs.capNew && !accept s.regs && !discard s.regs)) := by
  rcases capNew_frame he (busy_not_begin hb) with ⟨_, h, _⟩ | ⟨_, h⟩
  · rw [hb] at h; simp at h
  · rw [h, hardwarePhases_capNew]

/-- `res_valid`, unless BEGIN or RDRESULT clears it. -/
theorem resValid_frame {s : State} {e : Option Effect} (he : PortEffect s e) (hb : ¬ BeginAccepted s)
    (hf : ¬ (Presents s .rdResult ∧ s.regs.resValid = true)) :
    (cycleRegs s.regs s.inputs.echoIn e).resValid = (hardwarePhases s.regs).resValid := by
  cases he with
  | command i h =>
    have hc := effectOf_cases i s.regs
    generalize effectOf i s.regs = e at hc
    cases hc with
    | begun h1 h2 h3 h4 => exact absurd ⟨h, h1, h2, h3, h4⟩ hb
    | fetched h1 => exact absurd ⟨h, h1⟩ hf
    | _ => simp [cycleRegs, commandPhase, dropPhase, captureOp_eq, answer, done, configFault, capturedEvent,
        hardwarePhases]
  | _ => simp [cycleRegs, commandPhase, dropPhase, captureOp_eq, reject, answer, hardwarePhases]

/-- The registers the host owns while not busy: while busy no command writes any of them (R81, R124, R143). -/
structure BusyFrame (s : State) (r : Registers) : Prop where
  armed : r.armed = (hardwarePhases s.regs).armed
  pre : r.pre = (hardwarePhases s.regs).pre
  running : r.running = s.regs.running
  configured : r.configured = s.regs.configured
  cfgFault : r.cfgFault = s.regs.cfgFault
  divSel : r.divSel = s.regs.divSel
  scale : r.scale = s.regs.scale
  dmin : r.dmin = s.regs.dmin
  dmax : r.dmax = s.regs.dmax
  deadline : r.deadline = s.regs.deadline
  trigTicks : r.trigTicks = s.regs.trigTicks

/-- An effect that leaves alone what the host owns gives the busy frame. -/
theorem busyFrame_of {s : State} {e : Option Effect}
    (h : e = none ∨ (∃ st tag data, e = some (answer st tag data)) ∨ e = some (fetchedResult s.regs)) :
    BusyFrame s (cycleRegs s.regs s.inputs.echoIn e) := by
  have h1 := hardwarePhases_running s.regs
  have h2 := hardwarePhases_configured s.regs
  have h3 := hardwarePhases_cfgFault s.regs
  have h4 := hardwarePhases_divSel s.regs
  have h5 := hardwarePhases_scale s.regs
  have h6 := hardwarePhases_dmin s.regs
  have h7 := hardwarePhases_dmax s.regs
  have h8 := hardwarePhases_deadline s.regs
  have h9 := hardwarePhases_trigTicks s.regs
  unfold hardwarePhases at h1 h2 h3 h4 h5 h6 h7 h8 h9
  rcases h with rfl | ⟨st, tag, data, rfl⟩ | rfl <;> constructor <;>
    simp [cycleRegs, commandPhase, dropPhase, captureOp_eq, answer, fetchedResult, hardwarePhases, h1, h2, h3, h4, h5,
      h6, h7, h8, h9]

theorem busyFrame {s : State} {e : Option Effect} (he : PortEffect s e) (hb : busy s.regs = true) :
    BusyFrame s (cycleRegs s.regs s.inputs.echoIn e) := by
  apply busyFrame_of
  cases he with
  | nothing _ => exact .inl rfl
  | illegal _ => exact .inr (.inl ⟨_, _, _, rfl⟩)
  | reserved _ => exact .inr (.inl ⟨_, _, _, rfl⟩)
  | command i h =>
    have hc := effectOf_cases i s.regs
    generalize effectOf i s.regs = e at hc
    cases hc with
    | answered _ st tag data => exact .inr (.inl ⟨st, tag, data, rfl⟩)
    | fetched _ => exact .inr (.inr rfl)
    | _ => simp_all

/-- `pre`, unless CONFIGURE clears it. -/
theorem pre_frame {s : State} {e : Option Effect} (he : PortEffect s e) (hc : ∀ c, ¬ Presents s (.configure c)) :
    (cycleRegs s.regs s.inputs.echoIn e).pre = (hardwarePhases s.regs).pre := by
  cases he with
  | command i h =>
    have hce := effectOf_cases i s.regs
    generalize effectOf i s.regs = e at hce
    cases hce with
    | configured d => exact absurd h (hc d)
    | _ => simp [cycleRegs, commandPhase, dropPhase, captureOp_eq, answer, done, configFault, capturedEvent,
        fetchedResult, hardwarePhases, acceptedBegin]
  | _ => simp [cycleRegs, commandPhase, dropPhase, captureOp_eq, reject, answer, hardwarePhases]

/-- `hit` spelt out (R94). -/
theorem hit_iff (s : Registers) (e : Bool) :
    hit s e = true ↔
      (s.armed = .rising ∧ e = true ∧ s.echoQ = false) ∨ (s.armed = .falling ∧ e = false ∧ s.echoQ = true) := by
  unfold hit rise fall
  cases s.armed <;> cases e <;> cases s.echoQ <;> simp

end Sys2Proof.Machine
end

