-- ==== Sys2Proof/Laws/PerInstr.lean ====
section
/-! SUPPORT. Per command: its encoding's two fields, and its row of the opcode map, which makes it from its operand. -/

namespace Sys2Proof.Laws.EncodingRow

open Sys2Proof.Machine

/-- The opcode field of the command's word selects its row, its operand is within the row's format, the immediate field
is the operand, and the row makes the command from it. -/
def Statement (i : Instr) : Prop :=
  opcodeField (encode i) = i.opcode ∧ immField (encode i) = i.operand ∧
  i.operand.toNat < 2 ^ i.format.operandBits ∧
  ∃ build, opcodeRow i.opcode = some (i.format, build) ∧ build i.operand = i

/-- The fields of an encoded command. -/
theorem fields (i : Instr) : opcodeField (encode i) = i.opcode ∧ immField (encode i) = i.operand := by
  obtain ⟨h1, h2⟩ := fields_toNat (encode i)
  have h3 : (encode i).toNat = i.opcode.toNat * 2 ^ 24 + i.operand.toNat := append_toNat _ _
  have := i.operand.isLt
  constructor <;> apply BitVec.eq_of_toNat_eq <;> omega

/-- The statement from the row and the range. -/
theorem of_row {i : Instr} {build : BitVec 24 → Instr} (hr : i.operand.toNat < 2 ^ i.format.operandBits)
    (ho : opcodeRow i.opcode = some (i.format, build)) (hb : build i.operand = i) : Statement i :=
  ⟨(fields i).1, (fields i).2, hr, build, ho, hb⟩

/-- A narrow operand is read back from the immediate field. -/
theorem narrow (n : Nat) (v : BitVec n) (h : n ≤ 24) : (v.setWidth 24).extractLsb' 0 n = v := by
  apply BitVec.eq_of_toNat_eq
  have h1 := v.isLt
  have h2 : v.toNat < 2 ^ 24 := Nat.lt_of_lt_of_le h1 (Nat.pow_le_pow_right (by omega) h)
  rw [BitVec.extractLsb'_toNat, BitVec.toNat_setWidth, Nat.mod_eq_of_lt h2, Nat.shiftRight_zero, Nat.mod_eq_of_lt h1]

/-- A narrow operand is within its format. -/
theorem narrow_lt (n : Nat) (v : BitVec n) : (v.setWidth 24).toNat < 2 ^ n :=
  Nat.lt_of_le_of_lt (by rw [BitVec.toNat_setWidth]; exact Nat.mod_le _ _) v.isLt

theorem nop : Statement .nop := of_row (by decide) rfl rfl
theorem configure (d : BitVec 3) : Statement (.configure d) :=
  of_row (narrow_lt 3 d) rfl (congrArg Instr.configure (narrow 3 d (by decide)))
theorem start : Statement .start := of_row (by decide) rfl rfl
theorem stop : Statement .stop := of_row (by decide) rfl rfl
theorem setEdge (e : Edge) : Statement (.setEdge e) := by cases e <;> exact of_row (by decide) rfl rfl
theorem pollCap : Statement .pollCap := of_row (by decide) rfl rfl
theorem rdOvf : Statement .rdOvf := of_row (by decide) rfl rfl
theorem rdCnt : Statement .rdCnt := of_row (by decide) rfl rfl
theorem begin : Statement .begin := of_row (by decide) rfl rfl
theorem rdResult : Statement .rdResult := of_row (by decide) rfl rfl
theorem convert (r : BitVec 24) : Statement (.convert r) := of_row r.isLt rfl rfl
theorem setScale (k : BitVec 24) : Statement (.setScale k) := of_row k.isLt rfl rfl
theorem setMin (d : BitVec 16) : Statement (.setMin d) :=
  of_row (narrow_lt 16 d) rfl (congrArg Instr.setMin (narrow 16 d (by decide)))
theorem setMax (d : BitVec 16) : Statement (.setMax d) :=
  of_row (narrow_lt 16 d) rfl (congrArg Instr.setMax (narrow 16 d (by decide)))
theorem setDeadline (w : BitVec 16) : Statement (.setDeadline w) :=
  of_row (narrow_lt 16 w) rfl (congrArg Instr.setDeadline (narrow 16 w (by decide)))
theorem setTrig (w : BitVec 16) : Statement (.setTrig w) :=
  of_row (narrow_lt 16 w) rfl (congrArg Instr.setTrig (narrow 16 w (by decide)))
theorem rdReg (idx : BitVec 5) : Statement (.rdReg idx) :=
  of_row (narrow_lt 5 idx) rfl (congrArg Instr.rdReg (narrow 5 idx (by decide)))

end Sys2Proof.Laws.EncodingRow
end

