-- ==== Sys2Proof/Laws/Runs.lean ====
section
/-! SUPPORT. A run one cycle at a time: the first cycle of a run, and what the premises on a run say of its first cycle
and of the rest. -/

namespace Sys2Proof.Machine

/-- A run of `k + 1` cycles is a cycle and a run of `k`. -/
theorem run_succ (k : Nat) {s t : State} (h : step s = .next t) :
    Host.Core.run Sys2Proof.core (k + 1) s = Host.Core.run Sys2Proof.core k t := by
  simp only [Host.Core.run]
  rw [show Sys2Proof.core.step s = _ from h]

theorem noReset_succ {k : Nat} {s t : State} (h : NoReset (k + 1) s) (hs : step s = .next t) :
    s.inputs.rst = false ∧ NoReset k t := by
  refine ⟨h 0 (by omega) s rfl, fun j hj u hu => ?_⟩
  exact h (j + 1) (by omega) u (by rw [run_succ _ hs]; exact hu)

theorem noReset_mono {k m : Nat} {s : State} (h : NoReset k s) (hm : m ≤ k) : NoReset m s :=
  fun j hj u hu => h j (by omega) u hu

theorem echoFallsAt_succ {k : Nat} {s t : State} (h : EchoFallsAt (k + 1) s) (hs : step s = .next t) :
    s.inputs.echoIn = true ∧ EchoFallsAt k t :=
  ⟨h.1 0 (by omega) s rfl, fun j hj u hu => h.1 (j + 1) (by omega) u (by rw [run_succ _ hs]; exact hu),
    fun u hu => h.2 u (by rw [run_succ _ hs]; exact hu)⟩

theorem noDeadline_succ {k : Nat} {s t : State} (h : NoDeadline (k + 1) s) (hs : step s = .next t) :
    expire s.regs = false ∧ NoDeadline k t :=
  ⟨h 0 (by omega) s rfl, fun j hj u hu => h (j + 1) (by omega) u (by rw [run_succ _ hs]; exact hu)⟩

/-- Ticks of a run: those of its first cycle and of the rest. -/
theorem ticksIn_succ (k : Nat) {s t : State} (h : step s = .next t) :
    ticksIn (k + 1) s = (if tick s.regs then 1 else 0) + ticksIn k t := by
  rw [ticksIn, h]

/-- Every cycle consumes the first of the chosen inputs. -/
theorem step_stimulus {s t : State} (h : step s = .next t) : t.stimulus = s.stimulus.tail := by
  rcases step_cases h with ⟨_, rfl⟩ | ⟨_, _, _, rfl⟩ <;> rfl

/-- After `k` cycles the first `k` of the chosen inputs are consumed. -/
theorem run_stimulus : ∀ (k : Nat) (s t : State), Host.Core.run Sys2Proof.core k s = .next t →
    t.stimulus = s.stimulus.drop k
  | 0, s, t, h => by
    simp only [Host.Core.run] at h
    cases h
    rfl
  | k + 1, s, t, h => by
    cases hs : step s with
    | next u =>
      rw [run_succ k hs] at h
      rw [run_stimulus k u t h, step_stimulus hs, List.drop_tail]
    | fault f => cases f
    | refused r =>
      simp only [Host.Core.run] at h
      rw [show Sys2Proof.core.step s = _ from hs] at h
      cases h

/-- Where the first `k` chosen inputs apply no reset, the coming `k` cycles have none. -/
theorem noReset_of_stimulus {k : Nat} {s : State} (h : ∀ j < k, ∃ i, s.stimulus[j]? = some i ∧ i.rst = false) :
    NoReset k s := by
  intro j hj u hu
  obtain ⟨i, hi, hr⟩ := h j hj
  have hd := run_stimulus j s u hu
  have hh : u.stimulus.head? = some i := by rw [hd, List.head?_drop, hi]
  unfold State.inputs
  cases hl : u.stimulus with
  | nil => rw [hl] at hh; cases hh
  | cons a l => rw [hl] at hh; cases hh; exact hr

end Sys2Proof.Machine
end

