-- ==== Sys2Proof/Tests/Slice0.lean ====
section
/-! SUPPORT. Tests: the operand checks, the encodings of 95_test_vectors.md section 8, single steps of its sections 2 to
6 (each theorem's comment names its vector), and a witness for every statement that has hypotheses. -/

namespace Sys2Proof.Tests

open Sys2Proof.Machine

/-- A cycle's inputs without a command, with a command, with reset. -/
def quiet (echo : Bool) : Inputs := { rst := false, echoIn := echo, cmdValid := false, cmd := 0 }
def word (echo : Bool) (cmd : BitVec 32) : Inputs := { rst := false, echoIn := echo, cmdValid := true, cmd := cmd }
def resetting (echo : Bool) (cmd : BitVec 32) : Inputs := { rst := true, echoIn := echo, cmdValid := true, cmd := cmd }

/-- The machine with these registers and these inputs to come. -/
def at' (regs : Registers) (inputs : List Inputs) : State :=
  { regs := regs, stimulus := inputs, cycle := 0, out := Outputs.quiet }

/-- Configured with `DIV` = 1 and running. -/
def live : Registers := { Registers.reset with configured := true, divSel := 1, running := true }
def triggering : Registers := { live with state := .triggering, trig := true }
def awaitingRise : Registers := { live with state := .awaitingRisingEdge }
def awaitingFall : Registers := { live with state := .awaitingFallingEdge, armed := .falling }
def computing : Registers := { live with state := .computing }
def timedOut : Registers := { live with state := .timedOut, resValid := true, resKind := .timeout }

/-- A response word from its three fields (R60). -/
def rsp (status tag data : Nat) : BitVec 38 := BitVec.ofNat 38 (status * 17179869184 + tag * 4294967296 + data)

/-- The outcome is a next state with this property. -/
def goes (o : Host.Outcome State Fault Refusal) (p : State → Bool) : Bool :=
  match o with
  | .next t => p t
  | .fault _ => false
  | .refused _ => false

/-- The step leaves these registers and answers this response word. -/
def steps (s : State) (regs : Registers) (r : BitVec 38) : Bool :=
  goes (step s) (fun t => decide (t.regs = regs ∧ t.out.rsp = r))

/- ------------------------------------------------------------------ operand checks -------------------------- -/

theorem test_wf_configure : Instr.wellFormed (.configure 0) = false ∧ Instr.wellFormed (.configure 6) = false ∧
    Instr.wellFormed (.configure 7) = false ∧ Instr.wellFormed (.configure 5) = true := by decide
theorem test_wf_setDeadline : Instr.wellFormed (.setDeadline 0) = false ∧ Instr.wellFormed (.setDeadline 1) = true := by
  decide
theorem test_wf_setTrig : Instr.wellFormed (.setTrig 0) = false ∧ Instr.wellFormed (.setTrig 1) = true := by decide
theorem test_wf_rdReg : Instr.wellFormed (.rdReg 15) = false ∧ Instr.wellFormed (.rdReg 31) = false ∧
    Instr.wellFormed (.rdReg 14) = true := by decide

/- ------------------------------------------------------------------ encodings (95 section 8) ---------------- -/

theorem test_decode_nop : decode 0x00000000#32 = .command (.nop) ∧ decode 0x00000001#32 = .reservedBits := by
  decide
theorem test_decode_configure : decode 0x01000003#32 = .command (.configure 3) ∧ decode 0x01000008#32 = .reservedBits := by
  decide
theorem test_decode_start : decode 0x02000000#32 = .command (.start) ∧ decode 0x02000001#32 = .reservedBits := by
  decide
theorem test_decode_stop : decode 0x03000000#32 = .command (.stop) ∧ decode 0x03000001#32 = .reservedBits := by
  decide
theorem test_decode_setEdge : decode 0x04000001#32 = .command (.setEdge .falling) ∧ decode 0x04000002#32 = .reservedBits := by
  decide
theorem test_decode_pollCap : decode 0x05000000#32 = .command (.pollCap) ∧ decode 0x05000001#32 = .reservedBits := by
  decide
theorem test_decode_rdOvf : decode 0x06000000#32 = .command (.rdOvf) ∧ decode 0x06000001#32 = .reservedBits := by
  decide
theorem test_decode_rdCnt : decode 0x07000000#32 = .command (.rdCnt) ∧ decode 0x07000001#32 = .reservedBits := by
  decide
theorem test_decode_begin : decode 0x08000000#32 = .command (.begin) ∧ decode 0x08000001#32 = .reservedBits := by
  decide
theorem test_decode_rdResult : decode 0x09000000#32 = .command (.rdResult) ∧ decode 0x09000001#32 = .reservedBits := by
  decide
theorem test_decode_convert : decode 0x0A00048E#32 = .command (.convert 1166) := by decide
theorem test_decode_setScale : decode 0x10000232#32 = .command (.setScale 562) := by decide
theorem test_decode_setMin : decode 0x11000002#32 = .command (.setMin 2) ∧ decode 0x11010000#32 = .reservedBits := by
  decide
theorem test_decode_setMax : decode 0x12000190#32 = .command (.setMax 400) ∧ decode 0x12010000#32 = .reservedBits := by
  decide
theorem test_decode_setDeadline : decode 0x13000002#32 = .command (.setDeadline 2) ∧ decode 0x13010000#32 = .reservedBits := by
  decide
theorem test_decode_setTrig : decode 0x14000015#32 = .command (.setTrig 21) ∧ decode 0x14010000#32 = .reservedBits := by
  decide
theorem test_decode_rdReg : decode 0x1500000E#32 = .command (.rdReg 14) ∧ decode 0x15000020#32 = .reservedBits := by
  decide
/-- The first and last words of the two illegal ranges (R63). -/
theorem test_decode_illegal : decode 0x0B000000#32 = .illegalOpcode ∧ decode 0x0FFFFFFF#32 = .illegalOpcode ∧
    decode 0x16000000#32 = .illegalOpcode ∧ decode 0xFFFFFFFF#32 = .illegalOpcode := by decide
theorem test_decode_setEdge_rising : decode 0x04000000#32 = .command (.setEdge .rising) := by decide
/-- The response words 95 section 8 writes out. -/
theorem test_responses : responseWord ⟨.ok, 1, 0x00030064⟩ = 0x100030064#38 ∧
    responseWord ⟨.none, 0, 0⟩ = 0x400000000#38 ∧ responseWord ⟨.errBusy, 0, 0⟩ = 0x1000000000#38 := by decide
theorem test_tableWord : decodeTableWord 32 0x12000190 = some (.setMax 400) ∧ decodeTableWord 32 0x0C000000 = none := by
  decide
theorem test_withFetchWord :
    goes (step (State.reset.withFetchWord 32 0x01000005))
      (fun t => decide (t.regs = { Registers.reset with configured := true, divSel := 5 })) = true := by decide

/- ------------------------------------------------------------------ single steps (95 sections 2 to 6) ------- -/

/-- E1. -/
theorem test_nop : steps (at'
    Registers.reset [word false 0x00000000#32])
    Registers.reset (rsp 0 0 0) = true := by decide
/-- E2. -/
theorem test_nop_reserved : steps (at'
    Registers.reset [word false 0x00000001#32])
    Registers.reset (rsp 3 0 0) = true := by decide
/-- T9. -/
theorem test_configure_at_tick : steps (at'
    { live with divSel := 2, pre := 7, cnt := 9 } [word false 0x01000003#32])
    { live with divSel := 3, pre := 0, cnt := 10 } (rsp 0 0 0) = true := by decide
/-- T13. -/
theorem test_configure_invalid : steps (at'
    Registers.reset [word false 0x01000006#32])
    { Registers.reset with cfgFault := true } (rsp 3 0 0) = true := by decide
/-- T8. -/
theorem test_start : steps (at'
    { live with running := false, cnt := 500 } [word false 0x02000000#32])
    { live with running := true, cnt := 500 } (rsp 0 0 0) = true := by decide
/-- T18. -/
theorem test_start_unconfigured : steps (at'
    Registers.reset [word false 0x02000000#32])
    Registers.reset (rsp 6 0 0) = true := by decide
/-- T7. -/
theorem test_stop_at_tick : steps (at'
    { live with cnt := 500 } [word false 0x03000000#32])
    { live with cnt := 501, running := false } (rsp 0 0 0) = true := by decide
/-- T23. -/
theorem test_stop_under_fault : steps (at'
    { live with cfgFault := true } [word false 0x03000000#32])
    { live with cfgFault := true, running := false, cnt := 1 } (rsp 0 0 0) = true := by decide
/-- C13. -/
theorem test_setEdge_at_rise : steps (at'
    { live with cnt := 5 } [word true 0x04000001#32])
    { live with cnt := 6, armed := .falling, echoQ := true, capTick := 5, capNew := true } (rsp 0 0 0) = true := by decide
/-- C17. -/
theorem test_setEdge_busy : steps (at'
    awaitingRise [word false 0x04000001#32])
    { awaitingRise with cnt := 1 } (rsp 4 0 0) = true := by decide
/-- C9. -/
theorem test_pollCap_at_capture : steps (at'
    { live with cnt := 200, capNew := true, capTick := 50 } [word true 0x05000000#32])
    { live with cnt := 201, capNew := true, capTick := 200, echoQ := true } (rsp 0 0 50) = true := by decide
/-- C11. -/
theorem test_pollCap_falling : steps (at'
    { Registers.reset with capNew := true, capEdge := .falling, capOvf := 3, capTick := 100,
                           armed := .falling } [word false 0x05000000#32])
    { Registers.reset with capNew := false, capEdge := .falling, capOvf := 3, capTick := 100,
                           armed := .falling } (rsp 0 1 0x00030064) = true := by decide
/-- T20. -/
theorem test_rdOvf : steps (at'
    { Registers.reset with ovf := 3 } [word false 0x06000000#32])
    { Registers.reset with ovf := 3 } (rsp 0 0 3) = true := by decide
/-- T19. -/
theorem test_rdCnt_at_tick : steps (at'
    { live with cnt := 4660 } [word false 0x07000000#32])
    { live with cnt := 4661 } (rsp 0 0 0x1234) = true := by decide
/-- M3. -/
theorem test_begin_drops_capture : steps (at'
    { live with cnt := 10 } [word true 0x08000000#32])
    { live with cnt := 11, state := .triggering, echoQ := true, capTick := 10, trig := true } (rsp 0 0 0) = true := by decide
/-- M4. -/
theorem test_begin_from_timedOut : steps (at'
    { timedOut with cnt := 10, waitWraps := 1, trigCnt := 20 } [word false 0x08000000#32])
    { timedOut with cnt := 11, waitWraps := 0, trigCnt := 0, state := .triggering, resValid := false,
                    resKind := .none, trig := true } (rsp 0 0 0) = true := by decide
/-- M11. -/
theorem test_rdResult : steps (at'
    { Registers.reset with resValid := true, resKind := .inRange, resDist := 10, raw := 1166 } [word false 0x09000000#32])
    { Registers.reset with resValid := false, resKind := .inRange, resDist := 10, raw := 1166 } (rsp 0 0 10) = true := by decide
/-- M13. -/
theorem test_rdResult_timeout : steps (at'
    timedOut [word false 0x09000000#32])
    { timedOut with cnt := 1, resValid := false } (rsp 0 2 0) = true := by decide
/-- M15. -/
theorem test_convert : steps (at'
    Registers.reset [word false 0x0A00048E#32])
    Registers.reset (rsp 0 0 10) = true := by decide
/-- M25. -/
theorem test_convert_full_width : steps (at'
    { Registers.reset with dmin := 0, dmax := 65535 } [word false 0x0A749C79#32])
    { Registers.reset with dmin := 0, dmax := 65535 } (rsp 0 1 0) = true := by decide
/-- E8. -/
theorem test_setScale : steps (at'
    Registers.reset [word false 0x10FFFFFF#32])
    { Registers.reset with scale := 16777215 } (rsp 0 0 0) = true := by decide
/-- E10. -/
theorem test_setMin : steps (at'
    Registers.reset [word false 0x11000000#32])
    { Registers.reset with dmin := 0 } (rsp 0 0 0) = true := by decide
/-- E13. -/
theorem test_setMax : steps (at'
    Registers.reset [word false 0x12000001#32])
    { Registers.reset with dmax := 1 } (rsp 0 0 0) = true := by decide
/-- E16. -/
theorem test_setDeadline : steps (at'
    Registers.reset [word false 0x1300FFFF#32])
    { Registers.reset with deadline := 65535 } (rsp 0 0 0) = true := by decide
/-- E15. -/
theorem test_setDeadline_busy_first : steps (at'
    awaitingRise [word false 0x13000000#32])
    { awaitingRise with cnt := 1 } (rsp 4 0 0) = true := by decide
/-- E18. -/
theorem test_setTrig : steps (at'
    Registers.reset [word false 0x1400000B#32])
    { Registers.reset with trigTicks := 11 } (rsp 0 0 0) = true := by decide
/-- E17. -/
theorem test_setTrig_zero : steps (at'
    Registers.reset [word false 0x14000000#32])
    Registers.reset (rsp 3 0 0) = true := by decide
/-- E32. -/
theorem test_rdReg_status : steps (at'
    { awaitingFall with capNew := true, capEdge := .falling, echoQ := true, cnt := 9 } [word true 0x15000007#32])
    { awaitingFall with capNew := false, capEdge := .falling, echoQ := true, cnt := 10, state := .computing,
                        armed := .rising } (rsp 0 0 0x1DBB) = true := by decide
/-- E31. -/
theorem test_rdReg_result : steps (at'
    { Registers.reset with resValid := true, resKind := .timeout } [word false 0x15000006#32])
    { Registers.reset with resValid := true, resKind := .timeout } (rsp 0 0 0x80020000) = true := by decide
/-- T11. -/
theorem test_tick : steps (at'
    { live with divSel := 5, pre := 1023 } [quiet false])
    { live with divSel := 5, pre := 0, cnt := 1 } (0) = true := by decide
/-- T5. -/
theorem test_wrap : steps (at'
    { live with cnt := 65535, ovf := 65535 } [quiet false])
    { live with cnt := 0, ovf := 0 } (0) = true := by decide
/-- C6. -/
theorem test_capture_at_wrap : steps (at'
    { live with cnt := 65535, ovf := 2 } [quiet true])
    { live with cnt := 0, ovf := 3, echoQ := true, capTick := 65535, capOvf := 2, capNew := true } (0) = true := by decide
/-- Q2. -/
theorem test_trigStep_end : steps (at'
    { triggering with trigCnt := 20, cnt := 21 } [quiet false])
    { triggering with trigCnt := 20, cnt := 22, state := .awaitingRisingEdge, trig := false } (0) = true := by decide
/-- Q13. -/
theorem test_acceptRise_at_deadline : steps (at'
    { awaitingRise with cnt := 65535, ovf := 1, waitWraps := 1, capNew := true, capTick := 65534, capOvf := 1,
                        echoQ := true } [quiet true])
    { awaitingRise with cnt := 0, ovf := 2, waitWraps := 0, capNew := false, capTick := 65534, capOvf := 1,
                        echoQ := true, state := .awaitingFallingEdge, armed := .falling, startTick := 65534,
                        startOvf := 1 } (0) = true := by decide
/-- Q15. -/
theorem test_acceptFall : steps (at'
    { awaitingFall with startTick := 60000, startOvf := 2, cnt := 101, ovf := 3, capNew := true,
                        capEdge := .falling, capTick := 100, capOvf := 3 } [quiet false])
    { awaitingFall with startTick := 60000, startOvf := 2, cnt := 102, ovf := 3, capNew := false,
                        capEdge := .falling, capTick := 100, capOvf := 3, state := .computing,
                        armed := .rising, endTick := 100, endOvf := 3 } (0) = true := by decide
/-- Q18. -/
theorem test_discard_and_timeout : steps (at'
    { awaitingFall with startTick := 60000, startOvf := 2, echoQ := true, cnt := 65535, ovf := 3,
                        waitWraps := 1, capNew := true } [quiet true])
    { awaitingFall with startTick := 60000, startOvf := 2, echoQ := true, cnt := 0, ovf := 4, waitWraps := 1,
                        capNew := false, state := .timedOut, armed := .rising, resValid := true,
                        resKind := .timeout } (0) = true := by decide
/-- Q11. -/
theorem test_waitWrap : steps (at'
    { awaitingRise with cnt := 65535 } [quiet false])
    { awaitingRise with cnt := 0, ovf := 1, waitWraps := 1 } (0) = true := by decide
/-- Q14. -/
theorem test_timeout_keeps_late_edge : steps (at'
    { awaitingRise with cnt := 65535, ovf := 1, waitWraps := 1 } [quiet true])
    { awaitingRise with cnt := 0, ovf := 2, waitWraps := 1, state := .timedOut, echoQ := true,
                        capTick := 65535, capOvf := 1, capNew := true, resValid := true, resKind := .timeout } (0) = true := by decide
/-- Q20. -/
theorem test_compute : steps (at'
    { computing with cnt := 102, ovf := 3, startTick := 60000, startOvf := 2, endTick := 100, endOvf := 3 } [quiet false])
    { computing with cnt := 103, ovf := 3, startTick := 60000, startOvf := 2, endTick := 100, endOvf := 3,
                     state := .idle, raw := 5636, resValid := true, resKind := .inRange, resDist := 48 } (0) = true := by decide +kernel
/-- E4. -/
theorem test_illegal_while_busy : steps (at'
    awaitingRise [word false 0x0F123456#32])
    { awaitingRise with cnt := 1 } (rsp 2 0 0) = true := by decide
/-- E38: reset during a trigger pulse; the output still shows the old register. -/
theorem test_reset_in_pulse : goes (step (at' { triggering with cnt := 5 } [resetting true 0]))
    (fun t => decide (t.regs = Registers.reset ∧ t.out = { Outputs.quiet with trigOut := true })) = true := by decide
/-- S1, S3, S4 and 65536 cm against the largest bound. -/
theorem test_conversions : rawTicks 2 60000 3 100 = 5636 ∧ rawTicks 65535 65000 0 630 = 1166 ∧
    convert 1166 562 2 400 = (.inRange, 10) ∧ convert 52478 562 2 400 = (.outOfRange, 0) ∧
    convert 7642233 562 0 65535 = (.outOfRange, 0) := by decide

/- ------------------------------------------------------------------ witnesses ------------------------------- -/

/-- What holds of the state a concrete outcome carries. -/
theorem of_goes {o : Host.Outcome State Fault Refusal} {p : State → Bool} (h : goes o p = true) :
    ∀ u, o = .next u → p u = true := by
  intro u hu
  rw [hu] at h
  exact h

theorem inv_live : live.Inv := by constructor <;> decide
theorem inv_triggering : triggering.Inv := by constructor <;> decide
theorem inv_awaitingRise : awaitingRise.Inv := by constructor <;> decide
theorem inv_awaitingFall : ({ awaitingFall with echoQ := true } : Registers).Inv := by constructor <;> decide
theorem inv_computing : computing.Inv := by constructor <;> decide
theorem inv_timedOut : timedOut.Inv := by constructor <;> decide

/-- A command on the port. -/
theorem presents_of {s : State} {i : Instr} (h : presented s.inputs = .word (.command i)) : Presents s i := h

/-- An accepted BEGIN. -/
theorem begin_accepted_from {r : Registers} (hb : busy r = false) (hf : r.cfgFault = false)
    (hc : r.configured = true) (hr : r.running = true) (later : List Inputs) :
    BeginAccepted (at' r (word false 0x08000000#32 :: later)) :=
  ⟨congrArg Presented.word (by decide : decode 0x08000000#32 = Decoded.command .begin), hb, hf, hc, hr⟩
theorem begin_accepted (later : List Inputs) : BeginAccepted (at' live (word false 0x08000000#32 :: later)) :=
  begin_accepted_from rfl rfl rfl rfl later

/-- No accepted BEGIN without a BEGIN on the port. -/
theorem no_begin (r : Registers) (echo : Bool) (later : List Inputs) : ¬ BeginAccepted (at' r (quiet echo :: later)) :=
  fun h => nomatch (h.1 : Presented.nothing = Presented.word (.command .begin))

/-- No command on the port of a quiet cycle. -/
theorem presents_nothing (r : Registers) (echo : Bool) (later : List Inputs) (i : Instr) :
    ¬ Presents (at' r (quiet echo :: later)) i :=
  fun h => nomatch (h : Presented.nothing = Presented.word (.command i))

/-- One input `i`, then `n` quiet cycles: no reset in the coming `n` + 1 cycles. -/
theorem noReset_then_quiet (r : Registers) (i : Inputs) (hi : i.rst = false) (n : Nat) :
    NoReset (n + 1) (at' r (i :: List.replicate n (quiet false))) := by
  refine noReset_of_stimulus fun j hj => ?_
  cases j with
  | zero => exact ⟨i, rfl, hi⟩
  | succ j =>
    have hj : j < n := by omega
    exact ⟨quiet false, by simp [at', hj], rfl⟩

theorem witness_EncodeAfterDecode : decode 0x01000003#32 = .command (.configure 3) := by decide

/-- The three outcomes of the decoder, at the ends of their ranges. -/
theorem witness_DecodeByOpcodeAndRange :
    operandCount 0x0B = none ∧ operandCount 0x0F = none ∧ operandCount 0x16 = none ∧ operandCount 0xFF = none ∧
    operandCount 0x15 = some 32 ∧ (0x1500001F#32).toNat % 16777216 < 32 ∧ ¬ (0x15000020#32).toNat % 16777216 < 32 := by
  decide

theorem witness_StepRunsPresentedCommand :
    let s := at' live [word false 0x08000000#32]
    s.inputs.rst = false ∧ s.inputs.cmdValid = true ∧ decode s.inputs.cmd = .command .begin := by decide

theorem witness_IdlePortGivesNoResponse :
    let s := at' live [quiet true]
    s.inputs.rst = false ∧ s.inputs.cmdValid = false := by decide

theorem witness_ResetWinsOverEverything : (at' triggering [resetting true 0x08000000#32]).inputs.rst = true := by decide

theorem witness_ResetValues : (at' timedOut [resetting false 0]).inputs.rst = true := by decide

theorem witness_IllegalOpcodeAnswered :
    let s := at' awaitingRise [word false 0xFFFFFFFF#32]
    s.inputs.rst = false ∧ s.inputs.cmdValid = true ∧ operandCount (s.inputs.cmd.toNat / 16777216) = none := by decide

theorem witness_OutputsOfEveryCycle :
    (∃ t, step (at' timedOut [quiet false]) = .next t ∧ t.out.rspValid = false) ∧
    (∃ t, step (at' live [word false 0]) = .next t ∧ t.out.rspValid = true) ∧
    (∃ t, step (at' live [resetting false 0]) = .next t ∧ t.out.rspValid = false) :=
  ⟨⟨_, rfl, rfl⟩, ⟨_, rfl, rfl⟩, ⟨_, rfl, rfl⟩⟩

/-- The premises of `WordRuns`, for each opcode, with the largest operand and with the smallest reserved word. -/
theorem witness_WordRuns :
    ∀ p ∈ [(0x00, 1), (0x01, 8), (0x02, 1), (0x03, 1), (0x04, 2), (0x05, 1), (0x06, 1), (0x07, 1), (0x08, 1), (0x09, 1),
        (0x0A, 16777216), (0x10, 16777216), (0x11, 65536), (0x12, 65536), (0x13, 65536), (0x14, 65536), (0x15, 32)],
      let s := at' live [word false (BitVec.ofNat 32 (p.1 * 16777216 + (p.2 - 1)))]
      let t := at' live [word false (BitVec.ofNat 32 (p.1 * 16777216 + p.2))]
      s.inputs.rst = false ∧ s.inputs.cmdValid = true ∧ s.inputs.cmd.toNat / 16777216 = p.1 ∧
      s.inputs.cmd.toNat % 16777216 < p.2 ∧
      (p.2 < 16777216 → t.inputs.cmd.toNat / 16777216 = p.1 ∧ ¬ t.inputs.cmd.toNat % 16777216 < p.2) := by decide

/-- CONFIGURE's four clauses, the operand at the ends of its ranges. -/
theorem witness_ConfigureRule :
    busy awaitingRise = true ∧ (busy { live with cfgFault := true } = false ∧ { live with cfgFault := true }.cfgFault) ∧
    (busy live = false ∧ live.cfgFault = false) ∧
    (∀ d ∈ [1#3, 5#3], 1 ≤ d.toNat ∧ d.toNat ≤ 5) ∧ (∀ d ∈ [0#3, 6#3, 7#3], d.toNat = 0 ∨ 5 < d.toNat) := by decide

/-- START's and BEGIN's clauses. -/
theorem witness_StartRule :
    busy computing = true ∧ (busy { timedOut with cfgFault := true } = false ∧ { timedOut with cfgFault := true }.cfgFault) ∧
    (busy Registers.reset = false ∧ Registers.reset.cfgFault = false ∧ Registers.reset.configured = false) ∧
    (busy live = false ∧ live.cfgFault = false ∧ live.configured = true) := by decide

theorem witness_BeginRule :
    busy triggering = true ∧ (busy { live with cfgFault := true } = false ∧ { live with cfgFault := true }.cfgFault) ∧
    (busy Registers.reset = false ∧ Registers.reset.cfgFault = false ∧ Registers.reset.configured = false) ∧
    (let r := { live with running := false }
     busy r = false ∧ r.cfgFault = false ∧ r.configured = true ∧ r.running = false) ∧
    (busy timedOut = false ∧ timedOut.cfgFault = false ∧ timedOut.configured = true ∧ timedOut.running = true) := by decide

/-- The two clauses of STOP, SETEDGE and the setters. -/
theorem witness_StopRule : busy awaitingFall = true ∧ busy timedOut = false := by decide
theorem witness_SetEdgeRule : busy triggering = true ∧ busy Registers.reset = false := by decide
theorem witness_ConversionSettersRule : busy computing = true ∧ busy live = false := by decide
theorem witness_CountSettersRule : busy triggering = true ∧ busy live = false ∧ (0 : BitVec 16) = 0 ∧
    (1 : BitVec 16) ≠ 0 ∧ (65535 : BitVec 16) ≠ 0 := by decide

theorem witness_PollCapRule :
    busy awaitingRise = true ∧ (busy live = false ∧ live.capNew = false) ∧
    (busy { timedOut with capNew := true } = false ∧ { timedOut with capNew := true }.capNew) := by decide

theorem witness_RdResultRule : live.resValid = false ∧ timedOut.resValid = true := by decide

/-- CONVERT's two cases, at both bounds of the envelope (M18, M19, M20, M21). -/
theorem witness_ConvertRule :
    (2 ≤ (175 * 562 + 32768) / 65536 ∧ (175 * 562 + 32768) / 65536 ≤ 400) ∧
    (2 ≤ (46703 * 562 + 32768) / 65536 ∧ (46703 * 562 + 32768) / 65536 ≤ 400) ∧
    ¬ (2 ≤ (174 * 562 + 32768) / 65536 ∧ (174 * 562 + 32768) / 65536 ≤ 400) ∧
    ¬ (2 ≤ (46704 * 562 + 32768) / 65536 ∧ (46704 * 562 + 32768) / 65536 ≤ 400) := by norm_num

theorem witness_RdRegRule : (0#5).toNat ≤ 14 ∧ (14#5).toNat ≤ 14 ∧ 15 ≤ (15#5).toNat ∧ 15 ≤ (31#5).toNat := by decide

theorem witness_IdleOnlyCommandsBounce :
    busy triggering = true ∧ idleOnly (.setTrig 0) = true ∧ idleOnly (.rdReg 0) = false ∧
      timedOut.state = .timedOut := by decide

theorem witness_OperandCheckIsWellFormedness :
    (Instr.wellFormed (.rdReg 14) = true ∧ ∃ t, exec (.rdReg 14) (at' live []) = .next t) ∧
    (Instr.wellFormed (.rdReg 15) = false ∧ busy live = false ∧ live.cfgFault = false) :=
  ⟨⟨by decide, _, rfl⟩, by decide⟩

/-- A tick at the smallest and at the largest divider, no tick, and a stopped timer. -/
theorem witness_TickRule :
    (let s := at' { live with divSel := 5, pre := 1023 } [quiet false]
     s.inputs.rst = false ∧ divCycles s.regs.divSel = some 1024 ∧ s.regs.pre.toNat < 1024 ∧ s.regs.running = true ∧
       s.regs.pre.toNat = 1024 - 1) ∧
    (let s := at' { live with divSel := 2, pre := 6 } [quiet false]
     s.inputs.rst = false ∧ divCycles s.regs.divSel = some 8 ∧ s.regs.pre.toNat < 8 ∧ s.regs.running = true ∧
       s.regs.pre.toNat ≠ 8 - 1) ∧
    (let s := at' { live with running := false } [quiet false]
     s.inputs.rst = false ∧ divCycles s.regs.divSel = some 1 ∧ s.regs.pre.toNat < 1 ∧ s.regs.running = false) := by decide

theorem witness_TickRule_noConfigure : ∀ c, ¬ Presents (at' live [quiet false]) (.configure c) :=
  fun _ => presents_nothing _ _ _ _

theorem witness_WrapRule : (at' { live with cnt := 65535 } [quiet false]).inputs.rst = false := by decide
theorem witness_CaptureRule : (at' live [quiet true]).inputs.rst = false := by decide

/-- The four outcomes for `cap_new`: BEGIN, a capture, a clear, none of them. -/
theorem witness_CapturePendingPriority :
    ((at' live [word true 0x08000000#32]).inputs.rst = false ∧ BeginAccepted (at' live [word true 0x08000000#32])) ∧
    (¬ BeginAccepted (at' live [quiet true]) ∧ hit live true = true) ∧
    (let r := { awaitingRise with capNew := true }
     ¬ BeginAccepted (at' r [quiet false]) ∧ hit r false = false ∧ accept r = true) ∧
    (¬ BeginAccepted (at' live [quiet false]) ∧ hit live false = false ∧
      ¬ (Presents (at' live [quiet false]) .pollCap ∧ busy live = false) ∧ accept live = false ∧ discard live = false) :=
  ⟨⟨rfl, presents_of (by decide), rfl, rfl, rfl, rfl⟩, ⟨no_begin _ _ _, by decide⟩, ⟨no_begin _ _ _, by decide⟩,
    ⟨no_begin _ _ _, by decide, fun h => presents_nothing _ _ _ _ h.1, by decide, by decide⟩⟩

/-- No tick, a tick within the pulse, and its last tick. -/
theorem witness_TrigStepRule :
    (let r := { triggering with divSel := 2 }
     (at' r [quiet false]).inputs.rst = false ∧ r.state = .triggering ∧ tick r = false) ∧
    (let r := { triggering with trigCnt := 19 }
     tick r = true ∧ r.trigCnt.toNat + 1 < r.trigTicks.toNat) ∧
    (let r := { triggering with trigCnt := 20 }
     tick r = true ∧ r.trigTicks.toNat ≤ r.trigCnt.toNat + 1) := by decide

theorem witness_AcceptRiseRule :
    let s := at' { awaitingRise with capNew := true } [quiet false]
    s.inputs.rst = false ∧ s.regs.state = .awaitingRisingEdge ∧ s.regs.capNew = true ∧ s.regs.capEdge = .rising := by decide

theorem witness_AcceptFallRule :
    let s := at' { awaitingFall with capNew := true, capEdge := .falling } [quiet false]
    s.inputs.rst = false ∧ s.regs.state = .awaitingFallingEdge ∧ s.regs.capNew = true ∧ s.regs.capEdge = .falling := by
  decide

theorem witness_DiscardRule :
    (let s := at' { awaitingRise with capNew := true, capEdge := .falling } [quiet false]
     s.inputs.rst = false ∧ s.regs.capNew = true ∧ s.regs.state = .awaitingRisingEdge ∧ s.regs.capEdge = .falling ∧
       wrap s.regs = false) ∧
    (let s := at' { awaitingFall with capNew := true, cnt := 65535 } [quiet false]
     s.inputs.rst = false ∧ s.regs.capNew = true ∧ s.regs.state = .awaitingFallingEdge ∧ s.regs.capEdge = .rising ∧
       s.regs.waitWraps.toNat + 1 < s.regs.deadline.toNat) := by decide

theorem witness_WaitWrapRule :
    let s := at' { awaitingRise with cnt := 65535 } [quiet false]
    s.inputs.rst = false ∧ awaiting s.regs = true ∧ accept s.regs = false ∧ wrap s.regs = true ∧
      s.regs.waitWraps.toNat + 1 < s.regs.deadline.toNat := by decide

theorem witness_TimeoutRule :
    let s := at' { awaitingFall with cnt := 65535, waitWraps := 1 } [quiet true]
    s.inputs.rst = false ∧ s.regs.resValid = false ∧ awaiting s.regs = true ∧ accept s.regs = false ∧
      wrap s.regs = true ∧ s.regs.deadline.toNat ≤ s.regs.waitWraps.toNat + 1 := by decide

theorem witness_ComputeRule :
    let s := at' computing [word false 0x09000000#32]
    s.inputs.rst = false ∧ s.regs.resValid = false ∧ s.regs.state = .computing := by decide

/-- A step from every state of the sequencer, from the two resting ones with BEGIN and without. -/
theorem witness_TransitionTable :
    (∃ t, step (at' awaitingRise [resetting false 0]) = .next t) ∧
    (∃ t, step (at' timedOut [word false 0x08000000#32]) = .next t) ∧
    BeginAccepted (at' timedOut [word false 0x08000000#32]) ∧
    (∃ t, step (at' live [quiet false]) = .next t) ∧ ¬ BeginAccepted (at' live [quiet false]) ∧
    (∃ t, step (at' triggering [quiet false]) = .next t) ∧ (∃ t, step (at' awaitingRise [quiet false]) = .next t) ∧
    (∃ t, step (at' awaitingFall [quiet false]) = .next t) ∧ (∃ t, step (at' computing [quiet false]) = .next t) :=
  ⟨⟨_, rfl⟩, ⟨_, rfl⟩, ⟨presents_of (by decide), rfl, rfl, rfl, rfl⟩, ⟨_, rfl⟩, no_begin _ _ _, ⟨_, rfl⟩, ⟨_, rfl⟩, ⟨_, rfl⟩, ⟨_, rfl⟩⟩

/-- Each control register and timer flag changes in some step. -/
theorem witness_ControlRegisterWriters :
    goes (step (at' live [word false 0x10000001#32])) (fun t => decide (t.regs.scale ≠ live.scale)) ∧
    goes (step (at' live [word false 0x11000000#32])) (fun t => decide (t.regs.dmin ≠ live.dmin)) ∧
    goes (step (at' live [word false 0x1200FFFF#32])) (fun t => decide (t.regs.dmax ≠ live.dmax)) ∧
    goes (step (at' live [word false 0x13000001#32])) (fun t => decide (t.regs.deadline ≠ live.deadline)) ∧
    goes (step (at' live [word false 0x14000001#32])) (fun t => decide (t.regs.trigTicks ≠ live.trigTicks)) ∧
    goes (step (at' live [word false 0x01000005#32])) (fun t => decide (t.regs.divSel ≠ live.divSel)) ∧
    goes (step (at' live [word false 0x03000000#32])) (fun t => decide (t.regs.running ≠ live.running)) ∧
    goes (step (at' { live with running := false } [word false 0x02000000#32])) (fun t => t.regs.running) ∧
    goes (step (at' Registers.reset [word false 0x01000001#32])) (fun t => t.regs.configured) ∧
    goes (step (at' live [word false 0x01000007#32])) (fun t => t.regs.cfgFault) := by decide

/-- Each register of a measurement changes in some step. -/
theorem witness_MeasurementRegisterWriters :
    goes (step (at' { awaitingRise with capNew := true, capTick := 7 } [quiet false]))
      (fun t => decide (t.regs.startTick ≠ awaitingRise.startTick)) ∧
    goes (step (at' { awaitingFall with capNew := true, capEdge := .falling, capOvf := 1 } [quiet false]))
      (fun t => decide (t.regs.endOvf ≠ awaitingFall.endOvf)) ∧
    goes (step (at' { computing with endTick := 1166 } [quiet false]))
      (fun t => decide (t.regs.raw ≠ computing.raw ∧ t.regs.resKind ≠ computing.resKind ∧
        t.regs.resDist ≠ computing.resDist ∧ t.regs.resValid = true)) ∧
    goes (step (at' timedOut [word false 0x09000000#32])) (fun t => !t.regs.resValid) ∧
    goes (step (at' live [word false 0x08000000#32])) (fun t => t.regs.trig) ∧
    goes (step (at' { triggering with trigCnt := 20 } [quiet false])) (fun t => !t.regs.trig) ∧
    goes (step (at' triggering [quiet false])) (fun t => decide (t.regs.trigCnt ≠ triggering.trigCnt)) ∧
    goes (step (at' { triggering with trigCnt := 20, waitWraps := 1 } [quiet false]))
      (fun t => decide (t.regs.waitWraps ≠ 1)) ∧
    goes (step (at' { awaitingRise with capNew := true, waitWraps := 1 } [quiet false]))
      (fun t => decide (t.regs.waitWraps ≠ 1)) ∧
    goes (step (at' { awaitingRise with cnt := 65535 } [quiet false]))
      (fun t => decide (t.regs.waitWraps ≠ awaitingRise.waitWraps)) := by decide

theorem witness_DataRegistersNotWritable : Instr.nop ≠ .begin ∧ ∃ t, exec .nop (at' live [quiet true]) = .next t :=
  ⟨by decide, _, rfl⟩

/-- A SETEDGE and a BEGIN that change the arming, a busy cycle, and a measurement's last cycle. -/
theorem witness_ArmedEdgeOwnership :
    (busy live = false ∧ goes (step (at' live [word false 0x04000001#32])) (fun t => decide (t.regs.armed ≠ .rising))) ∧
    (let r := { live with armed := .falling }
     busy r = false ∧ goes (step (at' r [word false 0x08000000#32])) (fun t => decide (t.regs.armed ≠ .falling))) ∧
    (busy awaitingFall = true ∧ goes (step (at' awaitingFall [quiet false])) (fun t => busy t.regs)) ∧
    (busy computing = true ∧ goes (step (at' computing [quiet false])) (fun t => !busy t.regs)) := by decide

theorem witness_RawTicksIsTimestampDifference : 4294967295 < 4294967296 := by decide

/-- An exact half rounds up (`d` = 1 for 65536 × 0.5), at both ends of the envelope and just outside it. -/
theorem witness_ConverterRoundsAndClassifies :
    (2 * (1#32).toNat * (32768#24).toNat < (2 * 1 + 1) * 65536 ∧
      2 * 1 * 65536 ≤ 2 * (1#32).toNat * (32768#24).toNat + 65536) ∧
    ((1#16).toNat ≤ 1 ∧ 1 ≤ (1#16).toNat) ∧ 1 < (2#16).toNat ∧ (0#16).toNat < 1 := by decide

theorem witness_ConverterMonotone : 1 ≤ 2 ∧ 562 ≤ 562 := by decide

theorem witness_StepKeepsInvariants : (at' triggering [quiet true]).regs.Inv ∧ ∃ t, step (at' triggering [quiet true]) = .next t :=
  ⟨inv_triggering, _, rfl⟩

theorem witness_StepKeepsResultInvariants :
    timedOut.ResultInv ∧ ∃ t, step (at' timedOut [word false 0x08000000#32]) = .next t :=
  ⟨by constructor <;> decide, _, rfl⟩

theorem witness_FaultLeavesOnlyByReset :
    let r := { live with cfgFault := true }
    r.cfgFault = true ∧ busy r = false ∧ (at' r [word false 0x08000000#32]).inputs.rst = false ∧
      (∃ t, step (at' r [word false 0x08000000#32]) = .next t) ∧
      (at' r [resetting false 0]).inputs.rst = true ∧ ∃ t, step (at' r [resetting false 0]) = .next t :=
  ⟨rfl, rfl, rfl, ⟨_, rfl⟩, rfl, _, rfl⟩

theorem witness_ResultStaysUntilFetched :
    let s := at' timedOut [quiet true]
    s.regs.Inv ∧ s.regs.resValid = true ∧ s.inputs.rst = false ∧ ¬ Presents s .rdResult ∧ ¬ BeginAccepted s ∧
      ∃ t, step s = .next t :=
  ⟨inv_timedOut, rfl, rfl, presents_nothing _ _ _ _, no_begin _ _ _, _, rfl⟩

theorem witness_OutputsIgnoreEcho :
    let s1 := at' live [word false 0x05000000#32]
    let s2 := at' live [word true 0x05000000#32]
    s1.regs = s2.regs ∧ s1.inputs.rst = s2.inputs.rst ∧ s1.inputs.cmdValid = s2.inputs.cmdValid ∧
      s1.inputs.cmd = s2.inputs.cmd ∧ (∃ t, step s1 = .next t) ∧ ∃ t, step s2 = .next t :=
  ⟨rfl, rfl, rfl, rfl, ⟨_, rfl⟩, _, rfl⟩

theorem witness_HiddenRegistersUnreadable :
    let s1 := at' triggering []
    let s2 := at' { triggering with pre := 1, trigCnt := 2, waitWraps := 3 } []
    s2.regs = { s1.regs with pre := 1, trigCnt := 2, waitWraps := 3 } ∧ (∃ t, exec (.rdReg 7) s1 = .next t) ∧
      ∃ t, exec (.rdReg 7) s2 = .next t :=
  ⟨rfl, ⟨_, rfl⟩, _, rfl⟩

/-- In the first and in the last busy state. -/
theorem witness_RemainingCyclesFall :
    (triggering.Inv ∧ busy triggering = true ∧ (at' triggering [quiet false]).inputs.rst = false) ∧
    (computing.Inv ∧ busy computing = true ∧ (at' computing [quiet false]).inputs.rst = false) :=
  ⟨⟨inv_triggering, rfl, rfl⟩, inv_computing, rfl, rfl⟩

/-- With the reset configuration and `DIV` = 1 the bound is 262167 cycles (R169); from Idle, and from TimedOut with an
unfetched result. -/
theorem witness_EveryMeasurementEnds :
    (let s := at' live (word false 0x08000000#32 :: List.replicate 262166 (quiet false))
     s.regs.Inv ∧ BeginAccepted s ∧ divCycles s.regs.divSel = some 1 ∧
      NoReset ((s.regs.trigTicks.toNat + 2 * s.regs.deadline.toNat * 65536) * 1 + 2) s) ∧
    (let s := at' timedOut (word false 0x08000000#32 :: List.replicate 262166 (quiet false))
     s.regs.Inv ∧ BeginAccepted s ∧ divCycles s.regs.divSel = some 1 ∧ s.regs.resValid = true ∧
      NoReset ((s.regs.trigTicks.toNat + 2 * s.regs.deadline.toNat * 65536) * 1 + 2) s) :=
  ⟨⟨inv_live, begin_accepted _, rfl, noReset_mono (noReset_then_quiet live _ rfl 262166) (by decide)⟩,
    inv_timedOut, begin_accepted_from rfl rfl rfl rfl _, rfl, rfl,
    noReset_mono (noReset_then_quiet timedOut _ rfl 262166) (by decide)⟩

theorem witness_TriggerPulseLength :
    let s := at' live (word false 0x08000000#32 :: quiet false :: List.replicate 20 (quiet false))
    ∃ u, s.regs.Inv ∧ BeginAccepted s ∧ divCycles s.regs.divSel = some 1 ∧ step s = .next u ∧
      NoReset ((s.regs.trigTicks.toNat - 1) * 1 + (1 - u.regs.pre.toNat)) u := by
  refine ⟨_, inv_live, begin_accepted _, rfl, rfl, ?_⟩
  exact (noReset_succ (noReset_then_quiet live (word false 0x08000000#32) rfl 21) rfl).2

/-- The falling transition with nothing pending and with a rising event pending (which is discarded, as in program
P8), and the rising transition. -/
theorem witness_EdgeToResultLatency :
    (let s := at' { awaitingFall with echoQ := true } [quiet false, quiet false, quiet false]
     s.regs.Inv ∧ accept s.regs = false ∧ expire s.regs = false ∧ s.regs.state = .awaitingFallingEdge ∧
      s.inputs.echoIn = false ∧ s.regs.echoQ = true ∧ NoReset 3 s) ∧
    (let s := at' { awaitingFall with echoQ := true, capNew := true } [quiet false, quiet false, quiet false]
     s.regs.Inv ∧ accept s.regs = false ∧ expire s.regs = false ∧ s.regs.state = .awaitingFallingEdge ∧
      s.inputs.echoIn = false ∧ s.regs.echoQ = true ∧ NoReset 3 s ∧ discard s.regs = true) ∧
    (let s := at' awaitingRise [quiet true, quiet false]
     s.regs.Inv ∧ accept s.regs = false ∧ expire s.regs = false ∧ s.regs.state = .awaitingRisingEdge ∧
      s.inputs.echoIn = true ∧ s.regs.echoQ = false ∧ NoReset 2 s) :=
  ⟨⟨inv_awaitingFall, rfl, rfl, rfl, rfl, rfl, noReset_then_quiet _ (quiet false) rfl 2⟩,
    ⟨by constructor <;> decide, rfl, rfl, rfl, rfl, rfl, noReset_then_quiet _ (quiet false) rfl 2, rfl⟩,
    inv_awaitingRise, rfl, rfl, rfl, rfl, rfl, noReset_then_quiet _ (quiet true) rfl 1⟩

/-- A pulse of one cycle: `echo_in` is 1 in the first cycle and 0 in the second. -/
theorem witness_OneCyclePulseMissesItsEnd :
    let s := at' awaitingRise [quiet true, quiet false]
    s.regs.Inv ∧ s.regs.state = .awaitingRisingEdge ∧ s.regs.capNew = false ∧ s.inputs.echoIn = true ∧
      s.regs.echoQ = false ∧ expire s.regs = false ∧ NoReset 2 s ∧
      ∃ t, step s = .next t ∧ t.inputs.echoIn = false :=
  ⟨inv_awaitingRise, rfl, rfl, rfl, rfl, rfl, noReset_then_quiet _ (quiet true) rfl 1, _, rfl, rfl⟩

theorem witness_TimestampCountsTicks :
    let s := at' { live with cnt := 65535, ovf := 65535 } [quiet false, quiet false]
    NoReset 2 s ∧ ∃ t, Host.Core.run Sys2Proof.core 2 s = .next t :=
  ⟨noReset_then_quiet _ (quiet false) rfl 1, _, rfl⟩

/-- The shortest pulse that is measured: two cycles. -/
theorem witness_EchoPulseIsMeasured :
    let s := at' awaitingRise (quiet true :: quiet true :: List.replicate 3 (quiet false))
    s.regs.Inv ∧ s.regs.state = .awaitingRisingEdge ∧ s.regs.capNew = false ∧ s.regs.echoQ = false ∧ 2 ≤ 2 ∧
      EchoFallsAt 2 s ∧ NoDeadline 2 s ∧ NoReset (2 + 3) s := by
  refine ⟨inv_awaitingRise, rfl, rfl, rfl, Nat.le_refl 2, ⟨fun j hj => ?_, ?_⟩, fun j hj => ?_, ?_⟩
  · interval_cases j
    · exact of_goes (p := fun u => u.inputs.echoIn) rfl
    · exact of_goes (p := fun u => u.inputs.echoIn) rfl
  · intro u hu
    simpa using of_goes (p := fun u => !u.inputs.echoIn) rfl u hu
  · intro u hu
    have h : ∀ j ≤ 2, goes (Host.Core.run Sys2Proof.core j
        (at' awaitingRise (quiet true :: quiet true :: List.replicate 3 (quiet false))))
        (fun u => !expire u.regs) = true := by decide
    simpa using of_goes (h j hj) u hu
  · refine noReset_of_stimulus fun j hj => ?_
    interval_cases j <;> exact ⟨_, rfl, rfl⟩

end Sys2Proof.Tests
end

/-! # The registers over one cycle (10_state.md)

`hardwarePhases_cases` says once what the timer and the sequencer can do, `ControlWrite` which command writes which
control register; the invariants and the statements about who writes a register follow from the two. -/

namespace Sys2Proof.Machine

section Hardware

variable (s n : Registers)

/-! The registers of the sequencer and of the result, which the timer does not write (R95, R96). -/

@[simp] theorem timerPhase_startTick : (timerPhase s n).startTick = n.startTick := by rw [timerPhase_eq]
@[simp] theorem timerPhase_startOvf : (timerPhase s n).startOvf = n.startOvf := by rw [timerPhase_eq]
@[simp] theorem timerPhase_endTick : (timerPhase s n).endTick = n.endTick := by rw [timerPhase_eq]
@[simp] theorem timerPhase_endOvf : (timerPhase s n).endOvf = n.endOvf := by rw [timerPhase_eq]
@[simp] theorem timerPhase_raw : (timerPhase s n).raw = n.raw := by rw [timerPhase_eq]
@[simp] theorem timerPhase_resDist : (timerPhase s n).resDist = n.resDist := by rw [timerPhase_eq]
@[simp] theorem timerPhase_state : (timerPhase s n).state = n.state := by rw [timerPhase_eq]
@[simp] theorem timerPhase_armed : (timerPhase s n).armed = n.armed := by rw [timerPhase_eq]
@[simp] theorem timerPhase_capNew : (timerPhase s n).capNew = n.capNew := by rw [timerPhase_eq]
@[simp] theorem timerPhase_resValid : (timerPhase s n).resValid = n.resValid := by rw [timerPhase_eq]
@[simp] theorem timerPhase_resKind : (timerPhase s n).resKind = n.resKind := by rw [timerPhase_eq]
@[simp] theorem timerPhase_trig : (timerPhase s n).trig = n.trig := by rw [timerPhase_eq]
@[simp] theorem timerPhase_trigCnt : (timerPhase s n).trigCnt = n.trigCnt := by rw [timerPhase_eq]
@[simp] theorem timerPhase_waitWraps : (timerPhase s n).waitWraps = n.waitWraps := by rw [timerPhase_eq]

/-- Everything the sequencer can do to the registers `n` in one cycle (R98 to R104), with what selects it. -/
inductive SequencerCase : Registers → Prop where
  | rests (hb : busy s = false) : SequencerCase n
  | pulseHolds (hs : s.state = .triggering) (ht : tick s = false) : SequencerCase n
  | pulseCounts (hs : s.state = .triggering) (ht : tick s = true) (hc : s.trigCnt.toNat + 1 < s.trigTicks.toNat) :
      SequencerCase { n with trigCnt := s.trigCnt + 1 }
  | pulseEnds (hs : s.state = .triggering) (ht : tick s = true) (hc : s.trigTicks.toNat ≤ s.trigCnt.toNat + 1) :
      SequencerCase { n with trig := false, state := .awaitingRisingEdge, waitWraps := 0 }
  | acceptsRise (hs : s.state = .awaitingRisingEdge) (ha : accept s = true) :
      SequencerCase { n with startTick := s.capTick, startOvf := s.capOvf, capNew := false, armed := .falling,
                             state := .awaitingFallingEdge, waitWraps := 0 }
  | acceptsFall (hs : s.state = .awaitingFallingEdge) (ha : accept s = true) :
      SequencerCase { n with endTick := s.capTick, endOvf := s.capOvf, capNew := false, armed := .rising,
                             state := .computing, waitWraps := 0 }
  | waits (hw : awaiting s = true) (ha : accept s = false) (hk : wrap s = false) :
      SequencerCase { n with capNew := n.capNew && !discard s }
  | countsWrap (hw : awaiting s = true) (ha : accept s = false) (hk : wrap s = true)
      (hc : s.waitWraps.toNat + 1 < s.deadline.toNat) :
      SequencerCase { n with capNew := n.capNew && !discard s, waitWraps := s.waitWraps + 1 }
  | timesOut (hw : awaiting s = true) (ha : accept s = false) (he : expire s = true) :
      SequencerCase (enterTimedOut { n with capNew := n.capNew && !discard s })
  | computes (hs : s.state = .computing) :
      SequencerCase
        { n with raw := rawTicks s.startOvf s.startTick s.endOvf s.endTick,
                 resKind := (convert (rawTicks s.startOvf s.startTick s.endOvf s.endTick) s.scale s.dmin s.dmax).1,
                 resDist := (convert (rawTicks s.startOvf s.startTick s.endOvf s.endTick) s.scale s.dmin s.dmax).2,
                 resValid := true, state := .idle }

/-- While an awaiting state accepts nothing, a timeout is a wrap that reaches the deadline (R94). -/
theorem expire_iff (hw : awaiting s = true) (ha : accept s = false) :
    expire s = true ↔ wrap s = true ∧ s.deadline.toNat ≤ s.waitWraps.toNat + 1 := by
  simp [expire, hw, ha]

theorem accept_awaiting (ha : accept s = true) : awaiting s = true := by
  unfold accept at ha
  unfold awaiting
  cases h : want s <;> simp_all

theorem expire_awaiting (he : expire s = true) : awaiting s = true ∧ accept s = false := by
  simp only [expire, Bool.and_eq_true, Bool.not_eq_true'] at he
  exact he.1.1

theorem trigStepOp_cases (hs : s.state = .triggering) : SequencerCase s n (trigStepOp s n) := by
  unfold trigStepOp
  cases ht : tick s with
  | false => simpa using .pulseHolds hs ht
  | true =>
    by_cases hc : s.trigTicks.toNat ≤ s.trigCnt.toNat + 1
    · simpa [hs, hc] using .pulseEnds hs ht hc
    · simpa [hs, hc] using .pulseCounts hs ht (by omega)

theorem sequencerPhase_waiting_cases (hw : awaiting s = true) (ha : accept s = false) :
    SequencerCase s n (sequencerPhase s n) := by
  rw [sequencerPhase_waiting s n hw ha]
  cases he : expire s with
  | true => exact .timesOut hw ha he
  | false =>
    cases hk : wrap s with
    | false => simpa using .waits hw ha hk
    | true =>
      have hc : ¬ s.deadline.toNat ≤ s.waitWraps.toNat + 1 := fun hc => by
        simp [(expire_iff s hw ha).2 ⟨hk, hc⟩] at he
      simpa using .countsWrap hw ha hk (by omega)

/-- The sequencer does one of these, state by state. -/
theorem sequencerPhase_cases : SequencerCase s n (sequencerPhase s n) := by
  cases hs : s.state with
  | idle =>
    have hb : busy s = false := by simp [busy, hs]
    rw [sequencerPhase_resting s n hb]
    exact .rests hb
  | timedOut =>
    have hb : busy s = false := by simp [busy, hs]
    rw [sequencerPhase_resting s n hb]
    exact .rests hb
  | triggering =>
    rw [sequencerPhase_triggering s n hs]
    exact trigStepOp_cases s n hs
  | awaitingRisingEdge =>
    cases ha : accept s with
    | true =>
      rw [sequencerPhase_acceptRise s n hs ha]
      exact .acceptsRise hs ha
    | false => exact sequencerPhase_waiting_cases s n ((awaiting_iff s).2 (.inl hs)) ha
  | awaitingFallingEdge =>
    cases ha : accept s with
    | true =>
      rw [sequencerPhase_acceptFall s n hs ha]
      exact .acceptsFall hs ha
    | false => exact sequencerPhase_waiting_cases s n ((awaiting_iff s).2 (.inr hs)) ha
  | computing =>
    rw [sequencerPhase_computing s n hs, computeOp, if_pos hs]
    exact .computes hs

/-- What the timer and the sequencer leave is one of these, on the registers the timer leaves. -/
theorem hardwarePhases_cases : SequencerCase s (timerPhase s s) (hardwarePhases s) := sequencerPhase_cases s _

/-- At rest the timer alone runs: the registers it does not write stay (R93, R95, R96). -/
theorem hardwarePhases_of_resting (hb : busy s = false) :
    hardwarePhases s =
      { s with
        pre := if s.running then (if tick s then 0 else preAdvanced s) else s.pre
        cnt := if tick s then s.cnt + 1 else s.cnt
        ovf := if wrap s then s.ovf + 1 else s.ovf } := by
  rw [hardwarePhases_resting s hb, timerPhase_eq]

theorem busy_hardwarePhases_resting (hb : busy s = false) : busy (hardwarePhases s) = false := by
  rw [hardwarePhases_of_resting s hb]
  exact hb

end Hardware

/-- Without reset the step runs a cycle with the effect of what the port presents. -/
theorem step_without_reset {s t : State} (hr : s.inputs.rst = false) (h : step s = .next t) :
    ∃ e, PortEffect s e ∧ t.regs = cycleRegs s.regs s.inputs.echoIn e := by
  obtain ⟨e, he, hs⟩ := step_run s hr
  rw [hs] at h
  exact ⟨e, he, by rw [← Host.Outcome.next.inj h]; rfl⟩

/-- Settles O10: the reset cycle leaves the reset registers (R151), which are those of R46's table. -/
theorem resetValues : Obligations.ResetValues :=
  ⟨fun s hr => ⟨_, step_reset s hr, rfl⟩, rfl⟩

/-- A property of the registers that reset establishes and every phase of a cycle keeps (R117, R151). -/
structure KeptByPhases (P : Registers → Prop) : Prop where
  reset : P Registers.reset
  hardware : ∀ s, P s → P (hardwarePhases s)
  command : ∀ s i e, CommandEffect s i e → P (hardwarePhases s) → P (e.write (hardwarePhases s))
  capture : ∀ s echoIn n, P n → P (captureOp s echoIn n)
  drop : ∀ n b, P n → P { n with capNew := b }

/-- A cycle without reset is the timer and the sequencer, then the command's write, then the capture, and at most
`cap_new` written in the last phase (R117). -/
theorem cycleRegs_phases (s : Registers) (echoIn : Bool) (e : Option Effect) :
    ∃ b, cycleRegs s echoIn e =
      { captureOp s echoIn (commandPhase e (hardwarePhases s)) with capNew := b } := by
  rw [cycleRegs, ← hardwarePhases]
  unfold dropPhase
  split
  · split
    · exact ⟨false, rfl⟩
    · exact ⟨_, rfl⟩
  · exact ⟨_, rfl⟩

/-- Every cycle, with reset or without, keeps what its phases keep. -/
theorem KeptByPhases.step {P : Registers → Prop} (h : KeptByPhases P) {s t : State} (hs : P s.regs)
    (ht : step s = .next t) : P t.regs := by
  rcases step_cases ht with ⟨_, rfl⟩ | ⟨_, e, he, rfl⟩
  · exact h.reset
  · have hn := h.hardware s.regs hs
    obtain ⟨b, hcycle⟩ := cycleRegs_phases s.regs s.inputs.echoIn e
    rw [State.advance_regs, hcycle]
    refine h.drop _ b (h.capture _ _ _ ?_)
    cases he with
    | command i _ => exact h.command _ _ _ (effectOf_cases i s.regs) hn
    | _ => exact hn

section Divider

/-- The legal divider codes are 1 to 5 (R74). -/
theorem divSelLegal_iff (d : BitVec 3) : divSelLegal d = true ↔ 1 ≤ d.toNat ∧ d.toNat ≤ 5 := by
  revert d; decide

/-- Every `DIV` is at least 1 and at most 1024 (R8). -/
theorem divCycles_bounds {d : BitVec 3} {c : Nat} (h : divCycles d = some c) : 1 ≤ c ∧ c ≤ 1024 := by
  unfold divCycles at h
  split at h <;> simp_all <;> omega

/-- Without a tick the prescaler phase of a running timer advances by 1 and stays below `DIV` (R95). -/
theorem preAdvanced_lt {s : Registers} {d : Nat} (hd : divCycles s.divSel = some d) (hp : s.pre.toNat < d)
    (hr : s.running = true) (ht : tick s = false) : (preAdvanced s).toNat < d := by
  have hne : s.pre.toNat ≠ d - 1 := by simpa [tick_of_divCycles s hd, hr] using ht
  have hle := (divCycles_bounds hd).2
  have hlt : s.pre.toNat + 1 < 1024 := by omega
  have hone : (1 : BitVec 10).toNat = 1 := rfl
  rw [preAdvanced, if_pos hlt, BitVec.toNat_add_of_lt (by omega)]
  omega

end Divider

section Inv

/-- The timer keeps the invariants: it writes `pre`, of the registers they speak of. -/
theorem timerPhase_inv {s : Registers} (hs : s.Inv) : (timerPhase s s).Inv := by
  rw [timerPhase_eq]
  refine { hs with prescalerBelow := ?_, prescalerZero := ?_ }
  · intro hc d hd
    have hlt := hs.prescalerBelow hc d hd
    dsimp only
    split
    next hr =>
      split
      next => exact Nat.zero_lt_of_lt hlt
      next ht => exact preAdvanced_lt hd hlt hr (by simpa using ht)
    next => exact hlt
  · intro hc
    have hr : s.running = false := by
      cases hr : s.running with
      | false => rfl
      | true => exact absurd (hs.runningConfigured hr) (by simpa using hc)
    simpa [hr] using hs.prescalerZero hc

theorem toNat_add_one_le (v : BitVec 16) : (v + 1).toNat ≤ v.toNat + 1 := by
  rw [BitVec.toNat_add]
  exact Nat.mod_le _ _

/-- The sequencer keeps the invariants (R45): each case meets again the clauses on what it writes. -/
theorem SequencerCase.keeps_inv {s m : Registers} (hc : SequencerCase s (timerPhase s s) m) (hs : s.Inv) : m.Inv := by
  have hn := timerPhase_inv hs
  have hdeadline : 1 ≤ (timerPhase s s).deadline.toNat := hn.deadlinePositive
  cases hc with
  | rests _ => exact hn
  | pulseHolds _ _ => exact hn
  | pulseCounts hst _ hlt =>
    refine { hn with trigCountBelow := fun _ => ?_ }
    have hle := toNat_add_one_le s.trigCnt
    have hkeep : (timerPhase s s).trigTicks = s.trigTicks := by rw [timerPhase_eq]
    dsimp only
    rw [hkeep]
    omega
  | pulseEnds hst _ _ =>
    have hb : busy (timerPhase s s) = true := by simp [busy, hst]
    exact { hn with
      busyRuns := fun _ => hn.busyRuns hb
      busyNoResult := fun _ => hn.busyNoResult hb
      trigIff := by simp
      armedRising := fun _ => hn.armedRising (.inl (by simpa using hst))
      armedFalling := by simp
      trigCountBelow := by simp
      waitCountBelow := fun _ => hdeadline }
  | acceptsRise hst _ =>
    have hb : busy (timerPhase s s) = true := by simp [busy, hst]
    have htrig : s.trig ≠ true := fun h => by simp [hs.trigIff.1 h] at hst
    exact { hn with
      busyRuns := fun _ => hn.busyRuns hb
      busyNoResult := fun _ => hn.busyNoResult hb
      trigIff := by simp [htrig]
      armedRising := by simp
      armedFalling := fun _ => rfl
      trigCountBelow := by simp
      waitCountBelow := fun _ => hdeadline }
  | acceptsFall hst _ =>
    have hb : busy (timerPhase s s) = true := by simp [busy, hst]
    have htrig : s.trig ≠ true := fun h => by simp [hs.trigIff.1 h] at hst
    exact { hn with
      busyRuns := fun _ => hn.busyRuns hb
      busyNoResult := fun _ => hn.busyNoResult hb
      trigIff := by simp [htrig]
      armedRising := fun _ => rfl
      armedFalling := by simp
      trigCountBelow := by simp
      waitCountBelow := fun _ => hdeadline }
  | waits _ _ _ => exact { hn with }
  | countsWrap _ _ _ hlt =>
    refine { hn with waitCountBelow := fun _ => ?_ }
    have hle := toNat_add_one_le s.waitWraps
    have hkeep : (timerPhase s s).deadline = s.deadline := by rw [timerPhase_eq]
    dsimp only
    rw [hkeep]
    omega
  | timesOut hw _ _ =>
    have htrig : s.trig ≠ true := fun h => by simp [awaiting, want, hs.trigIff.1 h] at hw
    exact { hn with
      busyRuns := by simp [busy]
      busyNoResult := by simp [busy]
      trigIff := by simp [htrig]
      armedRising := by simp
      armedFalling := by simp
      trigCountBelow := by simp
      waitCountBelow := by simp [awaiting, want] }
  | computes hst =>
    have htrig : s.trig ≠ true := fun h => by simp [hs.trigIff.1 h] at hst
    exact { hn with
      busyRuns := by simp [busy]
      busyNoResult := by simp [busy]
      trigIff := by simp [htrig]
      armedRising := by simp
      armedFalling := by simp
      trigCountBelow := by simp
      waitCountBelow := by simp [awaiting, want] }

/-- The capture unit writes no register the invariants speak of. -/
theorem captureOp_inv {s n : Registers} {echoIn : Bool} (hn : n.Inv) : (captureOp s echoIn n).Inv := by
  rw [captureOp_eq]
  exact { hn with }

theorem toNat_pos_of_ne_zero {w : BitVec 16} (h : w ≠ 0) : 1 ≤ w.toNat := by
  have : w.toNat ≠ 0 := fun h0 => h (BitVec.eq_of_toNat_eq h0)
  omega

/-- Not busy is none of the four states of a measurement (R94). -/
theorem state_of_not_busy {n : Registers} (hb : ¬ busy n = true) :
    n.state ≠ .triggering ∧ n.state ≠ .awaitingRisingEdge ∧ n.state ≠ .awaitingFallingEdge ∧
      n.state ≠ .computing := by
  refine ⟨?_, ?_, ?_, ?_⟩ <;> intro h <;> simp [busy, h] at hb

/-- A command's writes keep the invariants: the host's commands write at rest, where no clause on a measurement
applies, and BEGIN starts from a running timer and a positive pulse length. -/
theorem CommandEffect.write_inv {s n : Registers} {i : Instr} {e : Effect} (he : CommandEffect s i e) (hn : n.Inv)
    (hrest : busy s = false → ¬ busy n = true) (hrun : n.running = s.running) (hconf : n.configured = s.configured) :
    (e.write n).Inv := by
  cases he with
  | answered => exact hn
  | configured d hb hf hd =>
    exact { hn with
      runningConfigured := fun _ => rfl
      configuredDivider := fun _ => (divSelLegal_iff d).1 hd
      prescalerBelow := fun _ c hc => (divCycles_bounds hc).1
      prescalerZero := fun _ => rfl
      busyRuns := fun h => absurd h (hrest hb) }
  | faulted d hb hf hd => exact { hn with }
  | started hb hf hc =>
    exact { hn with
      runningConfigured := fun _ => hconf.trans hc
      busyRuns := fun h => absurd h (hrest hb) }
  | stopped hb =>
    exact { hn with
      runningConfigured := fun h => absurd h Bool.false_ne_true
      busyRuns := fun h => absurd h (hrest hb) }
  | edgeSet edge hb =>
    obtain ⟨htrig, hrise, hfall, hcomp⟩ := state_of_not_busy (hrest hb)
    exact { hn with
      armedRising := fun h => by rcases h with h | h | h <;> contradiction
      armedFalling := fun h => absurd h hfall }
  | polled hb hp => exact { hn with }
  | begun hb hf hc hr =>
    exact { hn with
      busyRuns := fun _ => ⟨hrun.trans hr, hconf.trans hc⟩
      busyNoResult := fun _ => rfl
      trigIff := by simp [acceptedBegin]
      armedRising := fun _ => rfl
      armedFalling := fun h => by simp [acceptedBegin] at h
      trigCountBelow := fun _ => hn.trigTicksPositive
      waitCountBelow := fun _ => hn.deadlinePositive }
  | fetched hv => exact { hn with busyNoResult := fun _ => rfl }
  | scaleSet k hb => exact { hn with }
  | minSet d hb => exact { hn with }
  | maxSet d hb => exact { hn with }
  | deadlineSet w hb hw =>
    exact { hn with
      deadlinePositive := toNat_pos_of_ne_zero hw
      waitCountBelow := fun h => absurd (awaiting_busy (s := n) h) (hrest hb) }
  | trigSet w hb hw =>
    exact { hn with
      trigTicksPositive := toNat_pos_of_ne_zero hw
      trigCountBelow := fun h => absurd h (state_of_not_busy (hrest hb)).1 }

theorem reset_inv : Registers.reset.Inv := by constructor <;> decide

theorem inv_keptByPhases : KeptByPhases Registers.Inv where
  reset := reset_inv
  hardware s hs := (hardwarePhases_cases s).keeps_inv hs
  command s _ _ he hn := he.write_inv hn
    (fun hb => Bool.eq_false_iff.1 (busy_hardwarePhases_resting s hb))
    (hardwarePhases_running s) (hardwarePhases_configured s)
  capture _ _ _ := captureOp_inv
  drop _ _ hn := { hn with }

/-- Settles O48: reset establishes the invariants, and the phases of any other cycle keep them one by one. -/
theorem stepKeepsInvariants : Obligations.StepKeepsInvariants := fun _ _ hs h => inv_keptByPhases.step hs h

end Inv

section ResultInv

theorem reset_resultInv : Registers.reset.ResultInv := by constructor <;> decide

/-- Settles O47: clause by clause, on the reset registers. -/
theorem resetMeetsInvariants : Obligations.ResetMeetsInvariants := ⟨reset_inv, reset_resultInv⟩

/-- The converter's distance is 0 unless its kind is InRange (R111). -/
theorem convert_distance (raw : BitVec 32) (scale : BitVec 24) (dmin dmax : BitVec 16)
    (h : (convert raw scale dmin dmax).1 ≠ .inRange) : (convert raw scale dmin dmax).2 = 0 := by
  unfold convert at h ⊢
  split
  next hd => exact absurd (by rw [if_pos hd]) h
  next => rfl

/-- The converter always gives a kind (R109). -/
theorem convert_kind_ne_none (raw : BitVec 32) (scale : BitVec 24) (dmin dmax : BitVec 16) :
    (convert raw scale dmin dmax).1 ≠ .none := by
  unfold convert
  split <;> simp

theorem timerPhase_resultInv {s : Registers} (hs : s.ResultInv) : (timerPhase s s).ResultInv := by
  rw [timerPhase_eq]
  exact { hs with }

/-- The sequencer keeps what the result registers hold: a result is written where a measurement ends, and whole. -/
theorem SequencerCase.keeps_resultInv {s m : Registers} (hc : SequencerCase s (timerPhase s s) m)
    (hs : s.ResultInv) : m.ResultInv := by
  have hn := timerPhase_resultInv hs
  have hbusy : busy (timerPhase s s) = busy s := by simp [busy]
  cases hc with
  | rests _ => exact hn
  | pulseHolds _ _ => exact hn
  | pulseCounts _ _ _ => exact { hn with }
  | pulseEnds hst _ _ =>
    have hb : busy (timerPhase s s) = true := by simp [busy, hst]
    exact { hn with
      busyHasNone := fun _ => hn.busyHasNone hb
      timedOutRaw := by simp
      faultNotBusy := fun h => absurd (hn.faultNotBusy h) (by simp [hb]) }
  | acceptsRise hst _ =>
    have hb : busy (timerPhase s s) = true := by simp [busy, hst]
    exact { hn with
      busyHasNone := fun _ => hn.busyHasNone hb
      timedOutRaw := by simp
      faultNotBusy := fun h => absurd (hn.faultNotBusy h) (by simp [hb]) }
  | acceptsFall hst _ =>
    have hb : busy (timerPhase s s) = true := by simp [busy, hst]
    exact { hn with
      busyHasNone := fun _ => hn.busyHasNone hb
      timedOutRaw := by simp
      faultNotBusy := fun h => absurd (hn.faultNotBusy h) (by simp [hb]) }
  | waits _ _ _ => exact { hn with }
  | countsWrap _ _ _ _ => exact { hn with }
  | timesOut hw _ _ =>
    obtain ⟨hraw, _⟩ := hn.busyHasNone (hbusy.trans (awaiting_busy hw))
    exact { hn with
      distanceOnlyInRange := fun _ => rfl
      validHasKind := by simp
      busyHasNone := by simp [busy]
      timedOutRaw := fun _ => hraw
      faultNotBusy := by simp [busy] }
  | computes _ =>
    exact { hn with
      distanceOnlyInRange := convert_distance _ _ _ _
      validHasKind := fun _ => convert_kind_ne_none _ _ _ _
      busyHasNone := by simp [busy]
      timedOutRaw := by simp
      faultNotBusy := by simp [busy] }

theorem captureOp_resultInv {s n : Registers} {echoIn : Bool} (hn : n.ResultInv) :
    (captureOp s echoIn n).ResultInv := by
  rw [captureOp_eq]
  exact { hn with }

/-- A command's writes keep what the result registers hold: CONFIGURE faults at rest, BEGIN starts without the fault
and clears the result, RDRESULT hands it over. -/
theorem CommandEffect.write_resultInv {s n : Registers} {i : Instr} {e : Effect} (he : CommandEffect s i e)
    (hn : n.ResultInv) (hrest : busy s = false → busy n = false) (hfault : n.cfgFault = s.cfgFault) :
    (e.write n).ResultInv := by
  cases he with
  | faulted d hb hf hd => exact { hn with faultNotBusy := fun _ => hrest hb }
  | begun hb hf hc hr =>
    exact {
      distanceOnlyInRange := fun _ => rfl
      validHasKind := fun h => absurd h Bool.false_ne_true
      busyHasNone := fun _ => ⟨rfl, rfl⟩
      timedOutRaw := fun _ => rfl
      faultNotBusy := fun h => absurd (hfault.symm.trans h) (by simp [hf]) }
  | fetched hv => exact { hn with validHasKind := fun h => absurd h Bool.false_ne_true }
  | _ => exact { hn with }

theorem resultInv_keptByPhases : KeptByPhases Registers.ResultInv where
  reset := reset_resultInv
  hardware s hs := (hardwarePhases_cases s).keeps_resultInv hs
  command s _ _ he hn := he.write_resultInv hn (busy_hardwarePhases_resting s) (hardwarePhases_cfgFault s)
  capture _ _ _ := captureOp_resultInv
  drop _ _ hn := { hn with }

/-- Settles O49: the phases of a cycle keep the result's invariant one by one, and reset establishes it. -/
theorem stepKeepsResultInvariants : Obligations.StepKeepsResultInvariants :=
  fun _ _ hs h => resultInv_keptByPhases.step hs h

end ResultInv
end Sys2Proof.Machine

/-! # Who writes a register, and the register reads -/

namespace Sys2Proof.Machine

section ControlRegisters

/-- Two register files agree on the control registers, the timer's flags and the fault (R27 to R29, R33 to R38). -/
structure SameControl (n m : Registers) : Prop where
  scale : m.scale = n.scale
  dmin : m.dmin = n.dmin
  dmax : m.dmax = n.dmax
  deadline : m.deadline = n.deadline
  trigTicks : m.trigTicks = n.trigTicks
  divSel : m.divSel = n.divSel
  running : m.running = n.running
  configured : m.configured = n.configured
  cfgFault : m.cfgFault = n.cfgFault

/-- What a cycle makes of the control registers: nothing, or the write of the one command that may (R27 to R29, R33
to R38), with what its checks establish. -/
inductive ControlWrite (s : State) : Registers → Prop where
  | none : ControlWrite s s.regs
  | scale (k : BitVec 24) (hp : Presents s (.setScale k)) (hb : busy s.regs = false) :
      ControlWrite s { s.regs with scale := k }
  | dmin (d : BitVec 16) (hp : Presents s (.setMin d)) (hb : busy s.regs = false) :
      ControlWrite s { s.regs with dmin := d }
  | dmax (d : BitVec 16) (hp : Presents s (.setMax d)) (hb : busy s.regs = false) :
      ControlWrite s { s.regs with dmax := d }
  | deadline (w : BitVec 16) (hp : Presents s (.setDeadline w)) (hb : busy s.regs = false) (hw : w ≠ 0) :
      ControlWrite s { s.regs with deadline := w }
  | trigTicks (w : BitVec 16) (hp : Presents s (.setTrig w)) (hb : busy s.regs = false) (hw : w ≠ 0) :
      ControlWrite s { s.regs with trigTicks := w }
  | configure (d : BitVec 3) (hp : Presents s (.configure d)) (hb : busy s.regs = false)
      (hf : s.regs.cfgFault = false) (hd : 1 ≤ d.toNat ∧ d.toNat ≤ 5) :
      ControlWrite s { s.regs with divSel := d, configured := true }
  | fault (d : BitVec 3) (hp : Presents s (.configure d)) (hb : busy s.regs = false)
      (hf : s.regs.cfgFault = false) (hd : d.toNat = 0 ∨ 5 < d.toNat) :
      ControlWrite s { s.regs with cfgFault := true }
  | start (hp : Presents s .start) (hb : busy s.regs = false) (hf : s.regs.cfgFault = false)
      (hc : s.regs.configured = true) : ControlWrite s { s.regs with running := true }
  | stop (hp : Presents s .stop) (hb : busy s.regs = false) : ControlWrite s { s.regs with running := false }

theorem hardwarePhases_sameControl (s : Registers) : SameControl s (hardwarePhases s) := by
  constructor <;> simp

theorem SameControl.of_captureOp {c s n : Registers} {echoIn : Bool} (h : SameControl c n) :
    SameControl c (captureOp s echoIn n) := by
  rw [captureOp_eq]
  exact { h with }

/-- What a command writes into the control registers. -/
theorem CommandEffect.controlWrite {s : State} {n : Registers} {i : Instr} {e : Effect}
    (he : CommandEffect s.regs i e) (hp : Presents s i) (hn : SameControl s.regs n) :
    ∃ c, ControlWrite s c ∧ SameControl c (e.write n) := by
  cases he with
  | configured d hb hf hd =>
    exact ⟨_, .configure d hp hb hf ((divSelLegal_iff d).1 hd), { hn with divSel := rfl, configured := rfl }⟩
  | faulted d hb hf hd =>
    have hbad : ¬ (1 ≤ d.toNat ∧ d.toNat ≤ 5) := fun h => by simp [(divSelLegal_iff d).2 h] at hd
    exact ⟨_, .fault d hp hb hf (by omega), { hn with cfgFault := rfl }⟩
  | started hb hf hc => exact ⟨_, .start hp hb hf hc, { hn with running := rfl }⟩
  | stopped hb => exact ⟨_, .stop hp hb, { hn with running := rfl }⟩
  | scaleSet k hb => exact ⟨_, .scale k hp hb, { hn with scale := rfl }⟩
  | minSet d hb => exact ⟨_, .dmin d hp hb, { hn with dmin := rfl }⟩
  | maxSet d hb => exact ⟨_, .dmax d hp hb, { hn with dmax := rfl }⟩
  | deadlineSet w hb hw => exact ⟨_, .deadline w hp hb hw, { hn with deadline := rfl }⟩
  | trigSet w hb hw => exact ⟨_, .trigTicks w hp hb hw, { hn with trigTicks := rfl }⟩
  | _ => exact ⟨_, .none, { hn with }⟩

/-- What a cycle without reset leaves in the control registers. -/
theorem control_written {s : State} {e : Option Effect} (he : PortEffect s e) :
    ∃ c, ControlWrite s c ∧ SameControl c (cycleRegs s.regs s.inputs.echoIn e) := by
  have hn := hardwarePhases_sameControl s.regs
  have hwrite : ∃ c, ControlWrite s c ∧ SameControl c (commandPhase e (hardwarePhases s.regs)) := by
    cases he with
    | command i hp => exact (effectOf_cases i s.regs).controlWrite hp hn
    | _ => exact ⟨_, .none, hn⟩
  obtain ⟨c, hc, hsame⟩ := hwrite
  obtain ⟨b, hcycle⟩ := cycleRegs_phases s.regs s.inputs.echoIn e
  rw [hcycle]
  exact ⟨c, hc, { hsame.of_captureOp with }⟩

/-- Settles O40: each of the writes changes its own registers, under its own checks. -/
theorem controlRegisterWriters : Obligations.ControlRegisterWriters := by
  intro s t hr h
  obtain ⟨e, he, ht⟩ := step_without_reset hr h
  obtain ⟨c, hc, hsame⟩ := control_written he
  rw [ht, hsame.scale, hsame.dmin, hsame.dmax, hsame.deadline, hsame.trigTicks, hsame.divSel, hsame.running,
    hsame.configured, hsame.cfgFault]
  cases hc with
  | none => simp
  | scale k hp hb => simp [hp, hb]
  | dmin d hp hb => simp [hp, hb]
  | dmax d hp hb => simp [hp, hb]
  | deadline w hp hb hw => simpa [hp, hb] using fun _ => hw
  | trigTicks w hp hb hw => simpa [hp, hb] using fun _ => hw
  | configure d hp hb hf hd =>
    exact ⟨by simp, by simp, by simp, by simp, by simp, fun _ => ⟨hp, hb, hf, hd⟩, by simp,
      fun _ => ⟨rfl, hb, hf, d, hp, hd⟩, by simp⟩
  | fault d hp hb hf hd =>
    exact ⟨by simp, by simp, by simp, by simp, by simp, by simp, by simp, by simp,
      fun _ => ⟨rfl, hb, hf, d, hp, hd⟩⟩
  | start hp hb hf hc => simp [hp, hb, hf, hc]
  | stop hp hb => simp [hp, hb]

/-- Settles O50: the one write of `cfg_fault` sets it, and BEGIN, which alone leaves a resting state, needs it clear. -/
theorem faultLeavesOnlyByReset : Obligations.FaultLeavesOnlyByReset := by
  intro s t hf h
  cases hr : s.inputs.rst with
  | true =>
    rw [step_reset s hr] at h
    rw [← Host.Outcome.next.inj h]
    exact ⟨fun h => by simp at h, fun _ => rfl, fun _ => rfl⟩
  | false =>
    obtain ⟨e, he, ht⟩ := step_without_reset hr h
    refine ⟨fun _ => ?_, fun h => by simp at h, fun hb => ?_⟩
    · obtain ⟨c, hc, hsame⟩ := control_written he
      rw [ht, hsame.cfgFault]
      cases hc with
      | fault => rfl
      | _ => exact hf
    · have hbegin : ¬ BeginAccepted s := fun ⟨_, _, hclear, _⟩ => by simp [hf] at hclear
      have hstate := (hardwareFrame he hbegin).state
      rw [ht, busy, hstate, ← busy]
      exact busy_hardwarePhases_resting s.regs hb

end ControlRegisters
end Sys2Proof.Machine

namespace Sys2Proof.Machine

section MeasurementRegisters

variable {s m : Registers}

/-! Which operation of the sequencer writes which register of a measurement (R17 to R20, R30 to R32, R43, R44), by
cases of `SequencerCase`. -/

theorem SequencerCase.start_writer (hc : SequencerCase s (timerPhase s s) m)
    (h : m.startTick ≠ s.startTick ∨ m.startOvf ≠ s.startOvf) :
    s.state = .awaitingRisingEdge ∧ accept s = true := by
  cases hc with
  | acceptsRise hs ha => exact ⟨hs, ha⟩
  | _ => simp at h

theorem SequencerCase.end_writer (hc : SequencerCase s (timerPhase s s) m)
    (h : m.endTick ≠ s.endTick ∨ m.endOvf ≠ s.endOvf) :
    s.state = .awaitingFallingEdge ∧ accept s = true := by
  cases hc with
  | acceptsFall hs ha => exact ⟨hs, ha⟩
  | _ => simp at h

theorem SequencerCase.raw_writer (hc : SequencerCase s (timerPhase s s) m) (h : m.raw ≠ s.raw) :
    s.state = .computing := by
  cases hc with
  | computes hs => exact hs
  | _ => simp at h

theorem SequencerCase.result_writer (hc : SequencerCase s (timerPhase s s) m)
    (h : m.resKind ≠ s.resKind ∨ m.resDist ≠ s.resDist ∨ m.resValid ≠ s.resValid) :
    s.state = .computing ∨ expire s = true := by
  cases hc with
  | computes hs => exact .inl hs
  | timesOut _ _ he => exact .inr he
  | _ => simp at h

/-- The sequencer sets `res_valid` and never clears it. -/
theorem SequencerCase.resValid_kept (hc : SequencerCase s (timerPhase s s) m) (h : s.resValid = true) :
    m.resValid = true := by
  cases hc <;> simp [h]

/-- The sequencer ends the trigger pulse and never begins one. -/
theorem SequencerCase.trig_writer (hc : SequencerCase s (timerPhase s s) m) (h : m.trig ≠ s.trig) :
    m.trig = false ∧ s.state = .triggering ∧ tick s = true ∧ s.trigTicks.toNat ≤ s.trigCnt.toNat + 1 := by
  cases hc with
  | pulseEnds hs ht hc => exact ⟨rfl, hs, ht, hc⟩
  | _ => simp at h

theorem SequencerCase.trigCnt_writer (hc : SequencerCase s (timerPhase s s) m) (h : m.trigCnt ≠ s.trigCnt) :
    s.state = .triggering ∧ tick s = true ∧ s.trigCnt.toNat + 1 < s.trigTicks.toNat := by
  cases hc with
  | pulseCounts hs ht hc => exact ⟨hs, ht, hc⟩
  | _ => simp at h

theorem SequencerCase.waitWraps_writer (hc : SequencerCase s (timerPhase s s) m) (h : m.waitWraps ≠ s.waitWraps) :
    (s.state = .triggering ∧ tick s = true ∧ s.trigTicks.toNat ≤ s.trigCnt.toNat + 1) ∨
      (awaiting s = true ∧ (accept s = true ∨ (wrap s = true ∧ expire s = false))) := by
  cases hc with
  | pulseEnds hs ht hc => exact .inl ⟨hs, ht, hc⟩
  | acceptsRise _ ha => exact .inr ⟨accept_awaiting s ha, .inl ha⟩
  | acceptsFall _ ha => exact .inr ⟨accept_awaiting s ha, .inl ha⟩
  | countsWrap hw ha hk hlt =>
    have he : ¬ expire s = true := fun he => by
      have := ((expire_iff s hw ha).1 he).2
      omega
    exact .inr ⟨hw, .inr ⟨hk, by simpa using he⟩⟩
  | _ => simp at h

/-- Outside the awaiting states nothing is accepted and nothing expires (R94). -/
theorem accept_expire_of_not_awaiting (hw : awaiting s = false) : accept s = false ∧ expire s = false :=
  ⟨Bool.eq_false_iff.2 fun ha => by simp [accept_awaiting s ha] at hw, by simp [expire, hw]⟩

/-- `armed` after the sequencer: a function of acceptance and timeout (R81). -/
theorem SequencerCase.armed_eq (hc : SequencerCase s (timerPhase s s) m) :
    m.armed =
      if accept s then (if s.state = .awaitingRisingEdge then .falling else .rising)
      else if expire s then .rising else s.armed := by
  have hkept (hw : awaiting s = false) (hm : m.armed = s.armed) : m.armed =
      if accept s then (if s.state = .awaitingRisingEdge then .falling else .rising)
      else if expire s then .rising else s.armed := by
    obtain ⟨ha, he⟩ := accept_expire_of_not_awaiting hw
    simp [ha, he, hm]
  cases hc with
  | rests hb => exact hkept (Bool.eq_false_iff.2 fun hw => by simp [awaiting_busy hw] at hb) (by simp)
  | pulseHolds hs _ => exact hkept (by simp [awaiting, want, hs]) (by simp)
  | pulseCounts hs _ _ => exact hkept (by simp [awaiting, want, hs]) (by simp)
  | pulseEnds hs _ _ => exact hkept (by simp [awaiting, want, hs]) (by simp)
  | computes hs => exact hkept (by simp [awaiting, want, hs]) (by simp)
  | acceptsRise hs ha => simp [ha, hs]
  | acceptsFall hs ha => simp [ha, hs]
  | waits hw ha hk => simp [ha, expire, hk]
  | countsWrap hw ha hk hlt => simp [ha, expire, Nat.not_le.2 hlt]
  | timesOut hw ha he => simp [ha, he]

/-- A measurement ends by its computation or by a timeout. -/
theorem SequencerCase.ends (hc : SequencerCase s (timerPhase s s) m) (hb : busy s = true) (hend : busy m = false) :
    s.state = .computing ∨ expire s = true := by
  cases hc with
  | computes hs => exact .inl hs
  | timesOut _ _ he => exact .inr he
  | _ => simp_all [busy]

end MeasurementRegisters

section Settled

/-- Settles O41: without an accepted BEGIN these registers are what the sequencer leaves, but for RDRESULT's clear of
`res_valid`. -/
theorem measurementRegisterWriters : Obligations.MeasurementRegisterWriters := by
  intro s t hr h
  obtain ⟨e, he, ht⟩ := step_without_reset hr h
  rw [ht]
  by_cases hb : BeginAccepted s
  · have htrig : (cycleRegs s.regs s.inputs.echoIn e).trig = true := by
      rw [effect_of_begin he hb, cycleRegs_begin]; rfl
    have hvalid : (cycleRegs s.regs s.inputs.echoIn e).resValid = false := by
      rw [effect_of_begin he hb, cycleRegs_begin]; rfl
    simp [hb, htrig, hvalid]
  · obtain ⟨hst, hso, het, heo, hraw, hdist, hkind, _, htrig, hcnt, hww⟩ := hardwareFrame he hb
    rw [hst, hso, het, heo, hraw, hdist, hkind, htrig, hcnt, hww]
    have hc := hardwarePhases_cases s.regs
    refine ⟨fun h => .inr (hc.start_writer h), fun h => .inr (hc.end_writer h),
      fun h => .inr (hc.raw_writer h), fun h => .inr (hc.result_writer (h.imp_right .inl)),
      fun h0 h1 => ?_, fun h1 h0 => ?_, fun h0 h1 => ?_, fun h1 h0 => ?_,
      fun h => .inr (hc.trigCnt_writer h), fun h => .inr (hc.waitWraps_writer h)⟩
    · rw [resValid_frame he hb (by simp [h0])] at h1
      exact hc.result_writer (.inr (.inr (by simp [h0, h1])))
    · by_contra hnot
      rw [resValid_frame he hb fun hp => hnot (.inr hp.1), hc.resValid_kept h1] at h0
      simp at h0
    · have hoff := (hc.trig_writer (by simp [h0, h1])).1
      simp [h1] at hoff
    · exact (hc.trig_writer (by simp [h0, h1])).2

/-- POLLCAP at rest leaves no event pending but the one captured in its cycle (R80, R118). -/
theorem capNew_of_polled {s : State} {e : Option Effect} (he : PortEffect s e) (hb : ¬ BeginAccepted s)
    (hp : Presents s .pollCap ∧ busy s.regs = false) :
    (cycleRegs s.regs s.inputs.echoIn e).capNew = hit s.regs s.inputs.echoIn := by
  rcases capNew_frame he hb with ⟨_, _, _, hcap⟩ | ⟨hnot, hcap⟩
  · exact hcap
  · have hn : s.regs.capNew = false := Bool.eq_false_iff.2 fun hn => hnot ⟨hp.1, hp.2, hn⟩
    rw [hcap, hardwarePhases_capNew, hn]
    simp

/-- Without POLLCAP an event stays pending unless the sequencer accepts or discards it (R25, R118). -/
theorem capNew_of_not_polled {s : State} {e : Option Effect} (he : PortEffect s e) (hb : ¬ BeginAccepted s)
    (hp : ¬ (Presents s .pollCap ∧ busy s.regs = false)) :
    (cycleRegs s.regs s.inputs.echoIn e).capNew =
      (hit s.regs s.inputs.echoIn || (s.regs.capNew && !accept s.regs && !discard s.regs)) := by
  rcases capNew_frame he hb with ⟨hpoll, hrest, _⟩ | ⟨_, hcap⟩
  · exact absurd ⟨hpoll, hrest⟩ hp
  · rw [hcap, hardwarePhases_capNew]

/-- Settles O31: an accepted BEGIN's clear comes last, and otherwise the flag is `capNew_of_polled` or
`capNew_of_not_polled`. -/
theorem capturePendingPriority : Obligations.CapturePendingPriority := by
  intro s hr
  obtain ⟨e, he, hs⟩ := step_run s hr
  refine ⟨_, hs, fun hb => ?_, fun hb hh => ?_, fun hb hh hclear => ?_, fun hb hh hp ha hd => ?_⟩
  · rw [effect_of_begin he hb, cycleRegs_begin]; rfl
  · by_cases hp : Presents s .pollCap ∧ busy s.regs = false
    · exact (capNew_of_polled he hb hp).trans hh
    · simp [capNew_of_not_polled he hb hp, hh]
  · by_cases hp : Presents s .pollCap ∧ busy s.regs = false
    · exact (capNew_of_polled he hb hp).trans hh
    · rcases hclear.resolve_left hp with hc | hc <;> simp [capNew_of_not_polled he hb hp, hh, hc]
  · simp [capNew_of_not_polled he hb hp, hh, ha, hd]

/-- Settles O36: short of the deadline a wrap is no timeout, and the awaiting state counts it. -/
theorem waitWrapRule : Obligations.WaitWrapRule := by
  intro s hr hw ha hk hlt
  obtain ⟨e, he, hs⟩ := step_run s hr
  have hbusy := awaiting_busy hw
  have hframe := hardwareFrame he (busy_not_begin hbusy)
  have hno : expire s.regs = false := by simp [expire, Nat.not_le.2 hlt]
  have hcounted : hardwarePhases s.regs = { timerPhase s.regs s.regs with
      capNew := s.regs.capNew && !discard s.regs, waitWraps := s.regs.waitWraps + 1 } := by
    rw [hardwarePhases, sequencerPhase_waiting _ _ hw ha]
    simp [hno, hk]
  refine ⟨_, hs, ?_, ?_, ?_, ?_⟩
  · have hbound := s.regs.deadline.isLt
    have hone : (1 : BitVec 16).toNat = 1 := rfl
    rw [State.advance_regs, hframe.waitWraps, hcounted, BitVec.toNat_add_of_lt (by omega), hone]
  · rw [State.advance_regs, hframe.state, hcounted]; simp
  · rw [State.advance_regs, (busyFrame he hbusy).armed, hcounted]; simp
  · rw [State.advance_regs, hframe.resKind, hcounted]; simp

/-- The phases after the command's leave `armed` alone (R117). -/
theorem cycleRegs_armed (s : Registers) (echoIn : Bool) (e : Option Effect) :
    (cycleRegs s echoIn e).armed = (commandPhase e (hardwarePhases s)).armed := by
  obtain ⟨b, hcycle⟩ := cycleRegs_phases s echoIn e
  rw [hcycle, captureOp_eq]

/-- At rest `armed` changes by SETEDGE or by an accepted BEGIN alone (R81). -/
theorem armed_at_rest {s : State} {e : Option Effect} (he : PortEffect s e) (hb : busy s.regs = false) :
    (cycleRegs s.regs s.inputs.echoIn e).armed = s.regs.armed ∨
      Presents s (.setEdge (cycleRegs s.regs s.inputs.echoIn e).armed) ∨
      (BeginAccepted s ∧ (cycleRegs s.regs s.inputs.echoIn e).armed = .rising) := by
  have hhw : (hardwarePhases s.regs).armed = s.regs.armed := by rw [hardwarePhases_of_resting s.regs hb]
  rw [cycleRegs_armed]
  cases he with
  | command i hp =>
    have hc := effectOf_cases i s.regs
    generalize effectOf i s.regs = e at hc
    cases hc with
    | edgeSet edge _ => exact .inr (.inl hp)
    | begun h1 h2 h3 h4 => exact .inr (.inr ⟨⟨hp, h1, h2, h3, h4⟩, rfl⟩)
    | _ => exact .inl hhw
  | _ => exact .inl hhw

/-- Settles O43: at rest the host arms an edge (`armed_at_rest`), while busy the sequencer does
(`SequencerCase.armed_eq`), and it leaves Rising armed where a measurement times out or has its falling edge. -/
theorem armedEdgeOwnership : Obligations.ArmedEdgeOwnership := by
  intro s t hr h
  obtain ⟨e, he, ht⟩ := step_without_reset hr h
  rw [ht]
  refine ⟨fun hb hne => (armed_at_rest he hb).resolve_left hne, fun hb => ?_, fun hinv hb hend => ?_⟩
  · rw [(busyFrame he hb).armed, (hardwarePhases_cases s.regs).armed_eq]
  · have hrest : busy (hardwarePhases s.regs) = false := by
      rwa [busy, (hardwareFrame he (busy_not_begin hb)).state, ← busy] at hend
    rw [(busyFrame he hb).armed, (hardwarePhases_cases s.regs).armed_eq]
    rcases (hardwarePhases_cases s.regs).ends hb hrest with hs | hx
    · simp [accept, want, expire, awaiting, hs, hinv.armedRising (.inr (.inr hs))]
    · simp [(expire_awaiting s.regs hx).2, hx]

/-- Two register files agree on the ten data registers (R14 to R20). -/
structure SameData (n m : Registers) : Prop where
  cnt : m.cnt = n.cnt
  ovf : m.ovf = n.ovf
  capTick : m.capTick = n.capTick
  capOvf : m.capOvf = n.capOvf
  startTick : m.startTick = n.startTick
  startOvf : m.startOvf = n.startOvf
  endTick : m.endTick = n.endTick
  endOvf : m.endOvf = n.endOvf
  raw : m.raw = n.raw
  resDist : m.resDist = n.resDist

/-- No command but BEGIN writes a data register (R21). -/
theorem CommandEffect.write_sameData {s : Registers} {i : Instr} {e : Effect} (he : CommandEffect s i e)
    (hi : i ≠ .begin) (n : Registers) : SameData n (e.write n) := by
  cases he with
  | begun => exact absurd rfl hi
  | _ => constructor <;> rfl

/-- The capture unit latches the same pair whatever a command wrote before it. -/
theorem SameData.captureOp {n m : Registers} (h : SameData n m) (s : Registers) (echoIn : Bool) :
    SameData (captureOp s echoIn n) (captureOp s echoIn m) := by
  simp only [captureOp_eq]
  exact { h with capTick := by simp [h.capTick], capOvf := by simp [h.capOvf] }

/-- Settles O42: of the five phases only the command's own differs from the autonomous cycle. -/
theorem dataRegistersNotWritable : Obligations.DataRegistersNotWritable := by
  intro s t i hi h
  rw [exec_eq] at h
  have hwrite := (effectOf_cases i s.regs).write_sameData hi (hardwarePhases s.regs)
  have hsame : SameData (autonomous s.regs s.inputs.echoIn) t.regs := by
    obtain ⟨b, hcycle⟩ := cycleRegs_phases s.regs s.inputs.echoIn (some (effectOf i s.regs))
    rw [← Host.Outcome.next.inj h, State.advance_regs, hcycle]
    exact { hwrite.captureOp s.regs s.inputs.echoIn with }
  exact ⟨hsame.cnt, hsame.ovf, hsame.capTick, hsame.capOvf, hsame.startTick, hsame.startOvf, hsame.endTick,
    hsame.endOvf, hsame.raw, hsame.resDist⟩

end Settled

section RegisterReads

/-- RESULT as a number: each field at its bit (R40). -/
theorem resultView_eq (s : Registers) :
    resultView s = BitVec.ofNat 32 (s.resDist.toNat + 65536 * (resultKindCode s.resKind).toNat +
      2147483648 * s.resValid.toNat) := by
  have hd := s.resDist.isLt
  have hk := (resultKindCode s.resKind).isLt
  have hv := Bool.toNat_le s.resValid
  apply BitVec.eq_of_toNat_eq
  simp only [resultView, append_toNat, flagBit_toNat, BitVec.ofNat_eq_ofNat, BitVec.toNat_ofNat]
  omega

/-- STATUS as a number: each field at its bit (R39). -/
theorem statusView_eq (s : Registers) :
    statusView s = BitVec.ofNat 32 ((measStateCode s.state).toNat + 8 * (edgeBit s.armed).toNat +
      16 * s.running.toNat + 32 * s.configured.toNat + 64 * s.cfgFault.toNat + 128 * s.capNew.toNat +
      256 * (edgeBit s.capEdge).toNat + 512 * s.resValid.toNat + 1024 * (resultKindCode s.resKind).toNat +
      4096 * s.echoQ.toNat + 8192 * s.trig.toNat) := by
  have hm := (measStateCode s.state).isLt
  have ha := (edgeBit s.armed).isLt
  have he := (edgeBit s.capEdge).isLt
  have hk := (resultKindCode s.resKind).isLt
  have h1 := Bool.toNat_le s.running
  have h2 := Bool.toNat_le s.configured
  have h3 := Bool.toNat_le s.cfgFault
  have h4 := Bool.toNat_le s.capNew
  have h5 := Bool.toNat_le s.resValid
  have h6 := Bool.toNat_le s.echoQ
  have h7 := Bool.toNat_le s.trig
  apply BitVec.eq_of_toNat_eq
  simp only [statusView, append_toNat, flagBit_toNat, BitVec.ofNat_eq_ofNat, BitVec.toNat_ofNat]
  omega

/-- RDREG of an assigned index answers its view, and of a reserved one ERR_BADARG (R49, R92). -/
theorem exec_rdReg_of_view {s : State} {idx : BitVec 5} {v : BitVec 32} (h : view s.regs idx = some v) :
    exec (.rdReg idx) s = answered s ⟨.ok, 0, v⟩ := by
  rw [exec_eq, effectOf, rdRegEffect, h, commandCycle_answer]

theorem exec_rdReg_reserved {s : State} {idx : BitVec 5} (h : view s.regs idx = none) :
    exec (.rdReg idx) s = rejected s .errBadArg := by
  rw [exec_eq, effectOf, rdRegEffect, h, commandCycle_reject]

theorem view_reserved (s : Registers) {idx : BitVec 5} (h : 15 ≤ idx.toNat) : view s idx = none := by
  unfold view
  generalize idx.toNat = n at h
  obtain ⟨k, rfl⟩ := Nat.exists_eq_add_of_le' h
  rfl

/-- Settles O25, index by index. -/
theorem rdRegRule : Obligations.RdRegRule := by
  refine ⟨?_, fun s idx => ⟨fun h => ?_, fun h => exec_rdReg_reserved (view_reserved s.regs h)⟩, by decide,
    by decide, rfl, rfl⟩
  · refine wordRuns_of (f := .i5) (by decide) rfl rfl fun imm hi => congrArg Instr.rdReg ?_
    exact BitVec.eq_of_toNat_eq (by simp)
  · have hraw : BitVec.ofNat 32 s.regs.raw.toNat = s.regs.raw := by simp
    apply exec_rdReg_of_view
    unfold view
    generalize idx.toNat = n at h
    interval_cases n <;> simp only [zext32_eq, pair_eq, ← BitVec.ofNat_toNat, resultView_eq,
      statusView_eq, hraw]

end RegisterReads
end Sys2Proof.Machine

/-! # The command word and the response word (30_encoding.md)

A row of the opcode map and its command's two fields determine each other: `EncodingRow.Statement` reads the row from
the command, `opcodeRow_makes` the command's fields from the row. `decodeByOpcodeAndRange` says what every word decodes
to, and the other statements about words follow from it. -/

namespace Sys2Proof.Machine

section CommandWord

open Sys2Proof.Laws

/-- Every command has its row of the opcode map (R62). -/
theorem encodingRow (i : Instr) : EncodingRow.Statement i := by
  cases i with
  | nop => exact EncodingRow.nop
  | configure d => exact EncodingRow.configure d
  | start => exact EncodingRow.start
  | stop => exact EncodingRow.stop
  | setEdge e => exact EncodingRow.setEdge e
  | pollCap => exact EncodingRow.pollCap
  | rdOvf => exact EncodingRow.rdOvf
  | rdCnt => exact EncodingRow.rdCnt
  | begin => exact EncodingRow.begin
  | rdResult => exact EncodingRow.rdResult
  | convert r => exact EncodingRow.convert r
  | setScale k => exact EncodingRow.setScale k
  | setMin d => exact EncodingRow.setMin d
  | setMax d => exact EncodingRow.setMax d
  | setDeadline w => exact EncodingRow.setDeadline w
  | setTrig w => exact EncodingRow.setTrig w
  | rdReg idx => exact EncodingRow.rdReg idx

/-- Settles O1: the encoded word's opcode selects the command's row, which makes the command from its operand. -/
theorem decodeAfterEncode : Obligations.DecodeAfterEncode := by
  intro i
  obtain ⟨hop, himm, hlt, build, hrow, hbuild⟩ := encodingRow i
  have hzero : reservedZero i.format i.operand = true := (reservedZero_iff _ _).2 hlt
  simp [decode, hop, himm, hrow, hzero, hbuild]

/-- An immediate whose value fits in `n` bits is the widening of its low `n` bits. -/
theorem widen_extract {n : Nat} {imm : BitVec 24} (h : imm.toNat < 2 ^ n) :
    (imm.extractLsb' 0 n).setWidth 24 = imm := by
  apply BitVec.eq_of_toNat_eq
  rw [BitVec.toNat_setWidth, BitVec.extractLsb'_toNat, Nat.shiftRight_zero, Nat.mod_eq_of_lt h,
    Nat.mod_eq_of_lt imm.isLt]

theorem edgeBit_edgeOfBit (b : BitVec 1) : edgeBit (edgeOfBit b) = b := by
  revert b; decide

/-- A row of format Z has no operand. -/
theorem imm_eq_zero {imm : BitVec 24} (h : imm.toNat < 2 ^ Format.z.operandBits) : 0 = imm :=
  BitVec.eq_of_toNat_eq (Nat.lt_one_iff.1 h).symm

/-- The command a row makes from an immediate in its format's range has the row's opcode and that operand (R61, R62). -/
theorem opcodeRow_makes {op : BitVec 8} {f : Format} {build : BitVec 24 → Instr} {imm : BitVec 24}
    (hrow : opcodeRow op = some (f, build)) (h : imm.toNat < 2 ^ f.operandBits) :
    (build imm).opcode = op ∧ (build imm).operand = imm := by
  unfold opcodeRow at hrow
  split at hrow <;> cases hrow <;> refine ⟨BitVec.eq_of_toNat_eq (Eq.symm ‹op.toNat = _›), ?_⟩
  -- Rows 5 (SETEDGE), 11 and 12 (CONVERT and SETSCALE, the whole immediate), the other rows with an operand, format Z.
  case h_5 => exact (congrArg (BitVec.setWidth 24) (edgeBit_edgeOfBit _)).trans (widen_extract h)
  case h_11 | h_12 => rfl
  case h_2 | h_13 | h_14 | h_15 | h_16 | h_17 => exact widen_extract h
  all_goals exact imm_eq_zero h

/-- The statements' table of operand counts lists the rows of the opcode map, each with the range of its format, and
has no entry exactly where there is no row (R61 to R63). -/
theorem operandCount_eq (op : BitVec 8) :
    operandCount op.toNat = (opcodeRow op).map fun row => 2 ^ row.1.operandBits := by
  unfold opcodeRow
  split
  case h_18 => simp_all [operandCount]; omega
  all_goals simp [operandCount, Format.operandBits, *]

/-- A word with an opcode of the map: the command its row makes where the immediate is in the format's range, else
rejected for a reserved bit (R62, R64). -/
theorem decode_of_row {w : BitVec 32} {f : Format} {build : BitVec 24 → Instr}
    (hrow : opcodeRow (opcodeField w) = some (f, build)) :
    decode w = if (immField w).toNat < 2 ^ f.operandBits then .command (build (immField w)) else .reservedBits := by
  simp only [decode, hrow, reservedZero_iff]

/-- Settles O3: the word's row and its operand count agree (`operandCount_eq`), and in range the row makes a command
with the word's two fields. -/
theorem decodeByOpcodeAndRange : Obligations.DecodeByOpcodeAndRange := by
  intro w
  obtain ⟨hop, himm⟩ := fields_toNat w
  rw [← hop, ← himm, operandCount_eq]
  cases hrow : opcodeRow (opcodeField w) with
  | none => simp [decode, hrow]
  | some row =>
    rw [decode_of_row hrow, Option.map_some]
    by_cases hlt : (immField w).toNat < 2 ^ row.1.operandBits
    · obtain ⟨hopcode, hoperand⟩ := opcodeRow_makes hrow hlt
      simp [hlt, hopcode, hoperand]
    · simp [hlt]

/-- Settles O2: by `decodeByOpcodeAndRange` the command has the word's two fields, which make up the word. -/
theorem encodeAfterDecode : Obligations.EncodeAfterDecode := by
  intro w i hw
  have hcases := decodeByOpcodeAndRange w
  split at hcases
  · simp [hw] at hcases
  · split at hcases
    · obtain ⟨j, hj, hop, hoperand⟩ := hcases
      obtain rfl : i = j := Decoded.command.inj (hw.symm.trans hj)
      apply BitVec.eq_of_toNat_eq
      rw [encode, append_toNat, hop, hoperand]
      omega
    · simp [hw] at hcases

/-- Settles O4: the nine command words are encodings, the other two have a reserved bit set and an illegal opcode. -/
theorem writtenWordsDecode : Obligations.WrittenWordsDecode :=
  ⟨decodeAfterEncode (.configure 3), decodeAfterEncode .start, decodeAfterEncode (.setEdge .falling),
    decodeAfterEncode .pollCap, decodeAfterEncode .begin, decodeAfterEncode (.convert 1166),
    decodeAfterEncode (.setScale 562), decodeAfterEncode (.setMax 400), decodeAfterEncode (.rdReg 14),
    decodeByOpcodeAndRange 0x01000008#32, decodeByOpcodeAndRange 0x0C000000#32⟩

end CommandWord

section ResponsesAndOutputs

/-- Settles O5: the response word is a concatenation, read as a number. -/
theorem responseWordFields : Obligations.ResponseWordFields := by
  intro r
  have htag := r.tag.isLt
  have hdata := r.data.isLt
  simp only [responseWord, append_toNat]
  exact ⟨by omega, by omega, by omega, by decide⟩

/-- A cycle with nothing on the port (R69), and one with an illegal opcode on it (R63). -/
theorem step_of_nothing {s : State} (h : presented s.inputs = .nothing) : step s = idleCycle s := by
  simp only [step, h]

theorem step_of_illegal {s : State} (h : presented s.inputs = .word .illegalOpcode) : step s = illegalCycle s := by
  simp only [step, h]

/-- Settles O8: the idle cycle is the cycle without an effect. -/
theorem idlePortGivesNoResponse : Obligations.IdlePortGivesNoResponse := by
  intro s hrst hvalid
  rw [step_of_nothing (by simp [presented, hrst, hvalid])]
  rfl

/-- Settles O11: a word whose opcode has no operand count decodes to `illegalOpcode` (`decodeByOpcodeAndRange`). -/
theorem illegalOpcodeAnswered : Obligations.IllegalOpcodeAnswered := by
  intro s hrst hvalid hnone
  have hdecode := decodeByOpcodeAndRange s.inputs.cmd
  simp only [hnone] at hdecode
  rw [step_of_illegal (by simp [presented, hrst, hvalid, hdecode]), illegalCycle, commandCycle_reject]

/-- The effect of a cycle without reset as a function of what the port presents and of the registers. -/
def portEffect (s : Registers) : Presented → Option Effect
  | .reset => none
  | .nothing => none
  | .word (.command i) => some (effectOf i s)
  | .word .illegalOpcode => some (reject .errIllegal)
  | .word .reservedBits => some (reject .errBadArg)

theorem PortEffect.eq_portEffect {s : State} {e : Option Effect} (he : PortEffect s e) :
    e = portEffect s.regs (presented s.inputs) := by
  cases he with
  | nothing h => rw [h, portEffect]
  | command i h => rw [h, portEffect]
  | illegal h => rw [h, portEffect]
  | reserved h => rw [h, portEffect]

/-- The outputs of a step from the registers at its start and from what the port presents (R116, R151). -/
theorem step_out {s t : State} (h : step s = .next t) :
    t.out = if s.inputs.rst then resetOutputs s.regs
      else cycleOutputs s.regs (portEffect s.regs (presented s.inputs)) := by
  obtain ⟨hrst, rfl⟩ | ⟨hrst, e, he, rfl⟩ := step_cases h
  · simp [hrst]
  · simp [hrst, he.eq_portEffect]

/-- Settles O52: `step_out`, whose right-hand side reads neither `echo_in` nor any other field of the state. -/
theorem outputsIgnoreEcho : Obligations.OutputsIgnoreEcho := by
  intro s1 s2 t1 t2 hregs hrst hvalid hcmd h1 h2
  have hport : presented s1.inputs = presented s2.inputs := by simp only [presented, hrst, hvalid, hcmd]
  rw [step_out h1, step_out h2, hregs, hrst, hport]

end ResponsesAndOutputs
end Sys2Proof.Machine

/-! # The timer commands (40_timer_commands.md)

A command's effect stands behind its checks: `ifNotBusy_of_busy` and the lemmas after it say what each check of R135
leaves of the effect. A write to a register that the capture unit neither reads nor writes can be said on top of the
autonomous operations (`captureOp_write_running` and the two after it), and so the whole next state follows. -/

namespace Sys2Proof.Machine

section Checks

variable {s : Registers} {e : Effect}

theorem ifNotBusy_of_busy (h : busy s = true) : ifNotBusy s e = reject .errBusy := if_pos h

theorem ifNotBusy_of_resting (h : busy s = false) : ifNotBusy s e = e := if_neg (Bool.eq_false_iff.1 h)

theorem ifNoFault_of_fault (h : s.cfgFault = true) : ifNoFault s e = reject .errFault := if_pos h

theorem ifNoFault_of_noFault (h : s.cfgFault = false) : ifNoFault s e = e := if_neg (Bool.eq_false_iff.1 h)

theorem ifReady_false : ifReady false e = reject .errNotReady := rfl

theorem ifReady_true : ifReady true e = e := rfl

end Checks

section TimerWrites

variable (s n : Registers) (echoIn : Bool)

theorem captureOp_write_running (b : Bool) :
    captureOp s echoIn { n with running := b } = { captureOp s echoIn n with running := b } := by
  simp only [captureOp_eq]

theorem captureOp_write_divider (d : BitVec 3) :
    captureOp s echoIn { n with divSel := d, configured := true, pre := 0 } =
      { captureOp s echoIn n with divSel := d, configured := true, pre := 0 } := by
  simp only [captureOp_eq]

theorem captureOp_write_cfgFault :
    captureOp s echoIn { n with cfgFault := true } = { captureOp s echoIn n with cfgFault := true } := by
  simp only [captureOp_eq]

/-- The cycle that enters the configuration fault: ERR_BADARG, and `cfg_fault` on top of the autonomous operations
(R130, R139). -/
theorem commandCycle_configFault (s : State) :
    commandCycle s configFault =
      .next (s.advance { autonomous s.regs s.inputs.echoIn with cfgFault := true }
        (commandOutputs s.regs ⟨.errBadArg, 0, 0⟩)) := by
  rw [autonomous_eq, ← captureOp_write_cfgFault]
  rfl

end TimerWrites

section TimerCommands

/-- Settles O6: the step reads the command off the port. -/
theorem stepRunsPresentedCommand : Obligations.StepRunsPresentedCommand := by
  intro s i hrst hvalid hdecode
  have hpresented : presented s.inputs = .word (.command i) := by simp [presented, hrst, hvalid, hdecode]
  simp only [step, hpresented]

/-- CONFIGURE behind its two checks of the state (R74). -/
theorem exec_configure_unblocked {s : State} (d : BitVec 3) (hb : busy s.regs = false) (hf : s.regs.cfgFault = false) :
    exec (.configure d) s = commandCycle s
      (if divSelLegal d then done (fun n => { n with divSel := d, configured := true, pre := 0 }) else configFault) := by
  rw [exec_eq, effectOf, configureEffect, ifNotBusy_of_resting hb, ifNoFault_of_noFault hf]

/-- Settles O14: the two checks, then `divSelLegal_iff` decides between the write and the fault. -/
theorem configureRule : Obligations.ConfigureRule := by
  refine ⟨?_, by decide, fun s d => ⟨fun hb => ?_, fun hb hf => ?_, fun hb hf hlow hhigh => ?_, fun hb hf hout => ?_⟩⟩
  · refine wordRuns_of (f := .i3) (by decide) rfl rfl fun imm _ => congrArg Instr.configure ?_
    exact BitVec.eq_of_toNat_eq (by simp)
  · rw [exec_eq, effectOf, configureEffect, ifNotBusy_of_busy hb, commandCycle_reject]
  · rw [exec_eq, effectOf, configureEffect, ifNotBusy_of_resting hb, ifNoFault_of_fault hf, commandCycle_reject]
  · have hlegal : divSelLegal d = true := (divSelLegal_iff d).2 ⟨hlow, hhigh⟩
    rw [exec_configure_unblocked d hb hf, if_pos hlegal]
    exact commandCycle_done s _ fun n => captureOp_write_divider s.regs n _ d
  · have hillegal : ¬ divSelLegal d = true := by rw [divSelLegal_iff]; omega
    rw [exec_configure_unblocked d hb hf, if_neg hillegal, commandCycle_configFault]

/-- Settles O15: the three checks in their order (R135), and the write of `running`. -/
theorem startRule : Obligations.StartRule := by
  refine ⟨wordRuns_of (f := .z) (by decide) rfl rfl fun _ _ => rfl,
    fun s => ⟨fun hb => ?_, fun hb hf => ?_, fun hb hf hc => ?_, fun hb hf hc => ?_⟩⟩ <;>
    rw [exec_eq, effectOf, startEffect]
  · rw [ifNotBusy_of_busy hb, commandCycle_reject]
  · rw [ifNotBusy_of_resting hb, ifNoFault_of_fault hf, commandCycle_reject]
  · rw [ifNotBusy_of_resting hb, ifNoFault_of_noFault hf, hc, ifReady_false, commandCycle_reject]
  · rw [ifNotBusy_of_resting hb, ifNoFault_of_noFault hf, hc, ifReady_true]
    exact commandCycle_done s _ fun n => captureOp_write_running s.regs n _ true

/-- Settles O16: the busy check alone, and the write of `running`, which the tick of the cycle does not see (R117). -/
theorem stopRule : Obligations.StopRule := by
  refine ⟨wordRuns_of (f := .z) (by decide) rfl rfl fun _ _ => rfl, fun s => ⟨fun hb => ?_, fun hb => ?_⟩⟩ <;>
    rw [exec_eq, effectOf, stopEffect]
  · rw [ifNotBusy_of_busy hb, commandCycle_reject]
  · rw [ifNotBusy_of_resting hb]
    exact commandCycle_done s _ fun n => captureOp_write_running s.regs n _ false

/-- Settles O17: the two reads stand behind no check and only answer. -/
theorem countReadsRule : Obligations.CountReadsRule := by
  refine ⟨wordRuns_of (f := .z) (by decide) rfl rfl fun _ _ => rfl,
    wordRuns_of (f := .z) (by decide) rfl rfl fun _ _ => rfl, fun s => ⟨?_, ?_⟩⟩
  · rw [exec_eq, effectOf, rdCntEffect, zext32_eq, commandCycle_answer]
  · rw [exec_eq, effectOf, rdOvfEffect, zext32_eq, commandCycle_answer]

end TimerCommands
end Sys2Proof.Machine

/-! # The capture commands (41_capture_commands.md)

`hit` reads the arming at the start of the cycle (R94, `captureOp_write_armed`), so SETEDGE's write of `armed` can be
said on top of the autonomous operations. POLLCAP's clear of `cap_new` cannot: the capture unit's set comes after it
(R118), and `captureOp_write_capNew_clear` says what is left. -/

namespace Sys2Proof.Machine

section EdgeNumbers

/-- The edge of a tag as a number (R12, R60). -/
theorem edgeTag_eq (e : Edge) : edgeTag e = if e = .rising then 0 else 1 := by
  cases e <;> rfl

/-- The edge that a one-bit operand names: 0 is Rising (R12, R61). -/
theorem edgeOfBit_extract {imm : BitVec 24} (h : imm.toNat < 2) :
    edgeOfBit (imm.extractLsb' 0 1) = if imm.toNat = 0 then .rising else .falling := by
  have hbit : imm.extractLsb' 0 1 = 0 ↔ imm.toNat = 0 := by
    rw [← BitVec.toNat_inj, BitVec.extractLsb'_toNat, Nat.shiftRight_zero, Nat.mod_eq_of_lt h]
    rfl
  simp only [edgeOfBit, hbit]

end EdgeNumbers

section CaptureWrites

variable (s n : Registers) (echoIn : Bool)

theorem captureOp_write_armed (e : Edge) :
    captureOp s echoIn { n with armed := e } = { captureOp s echoIn n with armed := e } := by
  simp only [captureOp_eq]

theorem captureOp_write_capNew_clear :
    captureOp s echoIn { n with capNew := false } = { captureOp s echoIn n with capNew := hit s echoIn } := by
  simp only [captureOp_eq, Bool.or_false]

end CaptureWrites

section CaptureCommands

/-- Settles O18: the busy check alone, and the write of `armed`, which the capture of the cycle does not see. -/
theorem setEdgeRule : Obligations.SetEdgeRule := by
  refine ⟨?_, fun s e => ⟨fun hb => ?_, fun hb => ?_⟩⟩
  · exact wordRuns_of (f := .i1) (by decide) rfl rfl fun imm h => congrArg Instr.setEdge (edgeOfBit_extract h)
  · rw [exec_eq, effectOf, setEdgeEffect, ifNotBusy_of_busy hb, commandCycle_reject]
  · rw [exec_eq, effectOf, setEdgeEffect, ifNotBusy_of_resting hb]
    exact commandCycle_done s _ fun n => captureOp_write_armed s.regs n _ e

/-- The cycle that hands a pending event over: the event, and `cap_new` left set by a capture of this cycle alone
(R80, R118). -/
theorem commandCycle_capturedEvent (s : State) :
    commandCycle s (capturedEvent s.regs) =
      .next (s.advance { autonomous s.regs s.inputs.echoIn with capNew := hit s.regs s.inputs.echoIn }
        (commandOutputs s.regs (capturedEvent s.regs).response)) := by
  rw [autonomous_eq, ← captureOp_write_capNew_clear]
  rfl

/-- POLLCAP behind its busy check (R80). -/
theorem exec_pollCap_resting {s : State} (hb : busy s.regs = false) :
    exec .pollCap s = commandCycle s (if s.regs.capNew then capturedEvent s.regs else reject .none) := by
  rw [exec_eq, effectOf, pollCapEffect, ifNotBusy_of_resting hb]

/-- Settles O19: the busy check, then `cap_new` decides between NONE and the hand-over of the event. -/
theorem pollCapRule : Obligations.PollCapRule := by
  refine ⟨wordRuns_of (f := .z) (by decide) rfl rfl fun _ _ => rfl,
    fun s => ⟨fun hb => ?_, fun hb hn => ?_, fun hb hn => ?_⟩⟩
  · rw [exec_eq, effectOf, pollCapEffect, ifNotBusy_of_busy hb, commandCycle_reject]
  · rw [exec_pollCap_resting hb, if_neg (Bool.eq_false_iff.1 hn), commandCycle_reject]
  · rw [exec_pollCap_resting hb, if_pos hn, commandCycle_capturedEvent, capturedEvent, edgeTag_eq, pair_eq]

end CaptureCommands
end Sys2Proof.Machine

/-! # The measurement commands (42_measurement_commands.md)

BEGIN clears `cap_new` twice: in phase 3 with its other registers and, over the capture unit's set, in phase 5 (R118).
Of the two the second is left, and so an accepted BEGIN can be said on top of the autonomous operations
(`captureOp_clearedForBegin`), which still latch the captured pair. `res_valid` is not read by the capture unit
(`captureOp_write_resValid`). -/

namespace Sys2Proof.Machine

section MeasurementWrites

variable (s n : Registers) (echoIn : Bool)

/-- With the clear of phase 5, BEGIN's writes stand over the capture of the same cycle, whose pair stays latched
(R82(c)). -/
theorem captureOp_clearedForBegin :
    { captureOp s echoIn (clearedForBegin n) with capNew := false } = clearedForBegin (captureOp s echoIn n) := by
  simp only [captureOp_eq, clearedForBegin]

theorem captureOp_write_resValid (b : Bool) :
    captureOp s echoIn { n with resValid := b } = { captureOp s echoIn n with resValid := b } := by
  simp only [captureOp_eq]

end MeasurementWrites

section MeasurementCommands

/-- The cycle of an accepted BEGIN (R82). -/
theorem commandCycle_acceptedBegin (s : State) :
    commandCycle s acceptedBegin = accepted s (clearedForBegin (autonomous s.regs s.inputs.echoIn)) := by
  rw [autonomous_eq, ← captureOp_clearedForBegin]
  rfl

/-- BEGIN behind its checks of `busy` and `cfg_fault` (R82). -/
theorem exec_begin_unblocked {s : State} (hb : busy s.regs = false) (hf : s.regs.cfgFault = false) :
    exec .begin s = commandCycle s (ifReady (s.regs.configured && s.regs.running) acceptedBegin) := by
  rw [exec_eq, effectOf, beginEffect, ifNotBusy_of_resting hb, ifNoFault_of_noFault hf]

/-- Settles O20: the three checks in their order (R135), and the writes of an accepted BEGIN. -/
theorem beginRule : Obligations.BeginRule := by
  refine ⟨wordRuns_of (f := .z) (by decide) rfl rfl fun _ _ => rfl,
    fun s => ⟨fun hb => ?_, fun hb hf => ?_, fun hb hf hnot => ?_, fun hb hf hc hr => ?_⟩⟩
  · rw [exec_eq, effectOf, beginEffect, ifNotBusy_of_busy hb, commandCycle_reject]
  · rw [exec_eq, effectOf, beginEffect, ifNotBusy_of_resting hb, ifNoFault_of_fault hf, commandCycle_reject]
  · have hready : (s.regs.configured && s.regs.running) = false := Bool.and_eq_false_iff.2 hnot
    rw [exec_begin_unblocked hb hf, hready, ifReady_false, commandCycle_reject]
  · have hready : (s.regs.configured && s.regs.running) = true := Bool.and_eq_true_iff.2 ⟨hc, hr⟩
    rw [exec_begin_unblocked hb hf, hready, ifReady_true, commandCycle_acceptedBegin, clearedForBegin]

/-- The cycle that hands a result over: its kind and distance, and `res_valid` cleared (R83). -/
theorem commandCycle_fetchedResult (s : State) :
    commandCycle s (fetchedResult s.regs) =
      .next (s.advance { autonomous s.regs s.inputs.echoIn with resValid := false }
        (commandOutputs s.regs (fetchedResult s.regs).response)) := by
  rw [autonomous_eq, ← captureOp_write_resValid]
  rfl

/-- Settles O21: no check of the state; `res_valid` alone decides between NONE and the hand-over of the result. -/
theorem rdResultRule : Obligations.RdResultRule := by
  refine ⟨wordRuns_of (f := .z) (by decide) rfl rfl fun _ _ => rfl, fun s => ⟨fun hv => ?_, fun hv => ?_⟩⟩ <;>
    rw [exec_eq, effectOf, rdResultEffect]
  · rw [if_neg (Bool.eq_false_iff.1 hv), commandCycle_reject]
  · rw [if_pos hv, commandCycle_fetchedResult, fetchedResult, zext32_eq]
    cases s.regs.resKind <;> rfl

/-- The converter's answer as numbers: in range the distance is at most `dmax`, so that its 16 bits hold it
(R109, R111). -/
theorem convertEffect_eq (r : BitVec 24) (s : Registers) :
    convertEffect r s =
      if s.dmin.toNat ≤ (r.toNat * s.scale.toNat + 32768) / 65536 ∧
          (r.toNat * s.scale.toNat + 32768) / 65536 ≤ s.dmax.toNat then
        answer .ok 0 (BitVec.ofNat 32 ((r.toNat * s.scale.toNat + 32768) / 65536))
      else answer .ok 1 0 := by
  have hwide : (r.setWidth 32).toNat = r.toNat := BitVec.toNat_setWidth_of_le (by decide)
  rw [convertEffect, convert, hwide, distanceCm_eq]
  split
  next hrange =>
    have hfits : (r.toNat * s.scale.toNat + 32768) / 65536 < 2 ^ 16 := lt_of_le_of_lt hrange.2 s.dmax.isLt
    rw [zext32_eq, BitVec.toNat_ofNat, Nat.mod_eq_of_lt hfits]
    rfl
  next => rfl

/-- Settles O22: CONVERT stands behind no check and only answers, and `convertEffect_eq` says what. -/
theorem convertRule : Obligations.ConvertRule := by
  refine ⟨wordRuns_of (f := .i24) (by decide) rfl rfl fun imm _ => ?_, fun s r => ?_⟩
  · rw [BitVec.ofNat_toNat, BitVec.setWidth_eq]
  · rw [exec_eq, effectOf, convertEffect_eq]
    split <;> rw [commandCycle_answer]

end MeasurementCommands
end Sys2Proof.Machine

/-! # The configuration-input commands (43_config_read_commands.md)

The five setters have one shape: the busy check (R124), for the two counts the check against 0 (R123(b)), and the write
of one register that the capture unit neither reads nor writes. `exec_setter_busy` and the two lemmas after it say what
a command of that shape does. RDREG, the read of the same file, is settled above. -/

namespace Sys2Proof.Machine

section OperandBits

/-- The operand in the low bits of the immediate, as a number (R61). -/
theorem extract_low_eq_ofNat (n : Nat) (imm : BitVec 24) : imm.extractLsb' 0 n = BitVec.ofNat n imm.toNat :=
  BitVec.eq_of_toNat_eq (by rw [BitVec.extractLsb'_toNat, Nat.shiftRight_zero, BitVec.toNat_ofNat])

/-- The words of a row of format I16 (R61): the command of the 16-bit operand, or a reserved bit set. -/
theorem wordRuns_i16 {op : Nat} {cmd : BitVec 16 → Instr} (hop : op < 256)
    (hrow : opcodeRow (BitVec.ofNat 8 op) = some (.i16, fun imm => cmd (imm.extractLsb' 0 16))) :
    WordRuns op 65536 (fun n => cmd (BitVec.ofNat 16 n)) :=
  wordRuns_of hop hrow rfl fun imm _ => congrArg cmd (extract_low_eq_ofNat 16 imm)

end OperandBits

section CountCheck

theorem countLegal_iff (w : BitVec 16) : countLegal w = true ↔ w ≠ 0 := bne_iff_ne

theorem ifLegal_count_zero (e : Effect) : ifLegal (countLegal 0) e = reject .errBadArg := rfl

theorem ifLegal_count_of_ne_zero {w : BitVec 16} (hw : w ≠ 0) (e : Effect) : ifLegal (countLegal w) e = e :=
  if_pos ((countLegal_iff w).2 hw)

end CountCheck

section SettingWrites

variable (s n : Registers) (echoIn : Bool)

theorem captureOp_write_scale (k : BitVec 24) :
    captureOp s echoIn { n with scale := k } = { captureOp s echoIn n with scale := k } := by
  simp only [captureOp_eq]

theorem captureOp_write_dmin (d : BitVec 16) :
    captureOp s echoIn { n with dmin := d } = { captureOp s echoIn n with dmin := d } := by
  simp only [captureOp_eq]

theorem captureOp_write_dmax (d : BitVec 16) :
    captureOp s echoIn { n with dmax := d } = { captureOp s echoIn n with dmax := d } := by
  simp only [captureOp_eq]

theorem captureOp_write_deadline (w : BitVec 16) :
    captureOp s echoIn { n with deadline := w } = { captureOp s echoIn n with deadline := w } := by
  simp only [captureOp_eq]

theorem captureOp_write_trigTicks (w : BitVec 16) :
    captureOp s echoIn { n with trigTicks := w } = { captureOp s echoIn n with trigTicks := w } := by
  simp only [captureOp_eq]

end SettingWrites

section Setters

variable {s : State} {i : Instr} {e : Effect}

/-- A command behind the busy check is refused while a measurement runs (R124). -/
theorem exec_setter_busy (hi : effectOf i s.regs = ifNotBusy s.regs e) (hb : busy s.regs = true) :
    exec i s = rejected s .errBusy := by
  rw [exec_eq, hi, ifNotBusy_of_busy hb, commandCycle_reject]

/-- At rest, a refusal by the check behind the busy check is the answer. -/
theorem exec_setter_refused {st : Status} (hi : effectOf i s.regs = ifNotBusy s.regs e) (hb : busy s.regs = false)
    (he : e = reject st) : exec i s = rejected s st := by
  rw [exec_eq, hi, ifNotBusy_of_resting hb, he, commandCycle_reject]

/-- At rest, a write that the capture unit does not touch stands over the autonomous operations (R117). -/
theorem exec_setter_written {write : Registers → Registers} (hi : effectOf i s.regs = ifNotBusy s.regs e)
    (hb : busy s.regs = false) (he : e = done write)
    (hw : ∀ n, captureOp s.regs s.inputs.echoIn (write n) = write (captureOp s.regs s.inputs.echoIn n)) :
    exec i s = accepted s (write (autonomous s.regs s.inputs.echoIn)) := by
  rw [exec_eq, hi, ifNotBusy_of_resting hb, he, commandCycle_done s write hw]

end Setters

section ConfigReadCommands

/-- Settles O13: NOP stands behind no check and only answers. -/
theorem nopRule : Obligations.NopRule := by
  refine ⟨wordRuns_of (f := .z) (by decide) rfl rfl fun _ _ => rfl, fun s => ?_⟩
  rw [exec_eq, effectOf, commandCycle_answer]

/-- Settles O23: behind the busy check each of the three setters is its write alone. -/
theorem conversionSettersRule : Obligations.ConversionSettersRule := by
  refine ⟨?_, wordRuns_i16 (by decide) rfl, wordRuns_i16 (by decide) rfl, fun s k d => ⟨fun hb => ?_, fun hb => ?_⟩⟩
  · refine wordRuns_of (f := .i24) (by decide) rfl rfl fun imm _ => ?_
    rw [BitVec.ofNat_toNat, BitVec.setWidth_eq]
  · exact ⟨exec_setter_busy rfl hb, exec_setter_busy rfl hb, exec_setter_busy rfl hb⟩
  · exact ⟨exec_setter_written rfl hb rfl fun n => captureOp_write_scale s.regs n _ k,
      exec_setter_written rfl hb rfl fun n => captureOp_write_dmin s.regs n _ d,
      exec_setter_written rfl hb rfl fun n => captureOp_write_dmax s.regs n _ d⟩

/-- Settles O24: the busy check, then the count decides between ERR_BADARG and the write (R135). -/
theorem countSettersRule : Obligations.CountSettersRule := by
  refine ⟨wordRuns_i16 (by decide) rfl, wordRuns_i16 (by decide) rfl,
    fun s w => ⟨fun hb => ?_, fun hb hzero => ?_, fun hb hw => ?_⟩⟩
  · exact ⟨exec_setter_busy rfl hb, exec_setter_busy rfl hb⟩
  · subst hzero
    exact ⟨exec_setter_refused rfl hb (ifLegal_count_zero _), exec_setter_refused rfl hb (ifLegal_count_zero _)⟩
  · have hlegal := ifLegal_count_of_ne_zero hw
    exact ⟨exec_setter_written rfl hb (hlegal _) fun n => captureOp_write_deadline s.regs n _ w,
      exec_setter_written rfl hb (hlegal _) fun n => captureOp_write_trigTicks s.regs n _ w⟩

end ConfigReadCommands
end Sys2Proof.Machine

/-! # The autonomous operations (44_autonomous_operations.md)

`BusyCycle` gathers what the frames say of a cycle without reset in a busy state: every register is what the timer and
the sequencer (`hardwarePhases`), the capture unit or the host leaves in it. A rule about an operation of the sequencer
is then the equation of `hardwarePhases` for that operation, read register by register. -/

namespace Sys2Proof.Machine

section TimerAndCaptureUnit

/-- Short of the register's largest value, the prescaler phase of a running cycle without a tick adds 1 (R95). -/
theorem preAdvanced_toNat {s : Registers} (h : s.pre.toNat + 1 < 1024) : (preAdvanced s).toNat = s.pre.toNat + 1 := by
  have hone : (1 : BitVec 10).toNat = 1 := rfl
  rw [preAdvanced, if_pos h, BitVec.toNat_add_of_lt (by omega), hone]

theorem wrap_eq_decide (s : Registers) : wrap s = decide (tick s = true ∧ s.cnt.toNat = 65535) :=
  Bool.eq_iff_iff.2 (by rw [wrap_iff, decide_eq_true_iff])

theorem timestamp_lt (ovf cnt : BitVec 16) : timestamp ovf cnt < 4294967296 := by
  have ho := ovf.isLt
  have hc := cnt.isLt
  simp only [timestamp, Config.timerRange]
  omega

/-- The timer advances `{ovf, cnt}` by 1 at a tick, modulo 2^32: a tick at `cnt` = 65535 is a wrap (R96). -/
theorem timestamp_hardwarePhases (s : Registers) :
    timestamp (hardwarePhases s).ovf (hardwarePhases s).cnt =
      (timestamp s.ovf s.cnt + if tick s = true then 1 else 0) % 4294967296 := by
  have hlt := timestamp_lt s.ovf s.cnt
  have ho := s.ovf.isLt
  have hc := s.cnt.isLt
  have hone : (1 : BitVec 16).toNat = 1 := rfl
  rw [hardwarePhases_ovf, hardwarePhases_cnt, wrap_eq_decide]
  cases ht : tick s with
  | false => simp [Nat.mod_eq_of_lt hlt]
  | true =>
    by_cases hw : s.cnt.toNat = 65535 <;>
      simp only [hw, timestamp, Config.timerRange, BitVec.toNat_add, hone, and_self, and_false, decide_true,
        decide_false, if_true, Bool.false_eq_true, if_false] <;> omega

/-- Settles O28: `cnt` and `pre` after the timer's phase, which CONFIGURE alone overrides, and only in `pre`. -/
theorem tickRule : Obligations.TickRule := by
  intro s d hr hd hp
  obtain ⟨e, he, hs⟩ := step_run s hr
  have hle := (divCycles_bounds hd).2
  refine ⟨_, hs, ?_⟩
  rw [State.advance_regs, (captureFrame he).cnt, hardwarePhases_cnt, tick_of_divCycles s.regs hd]
  refine ⟨fun hrun hlast => ⟨?_, fun hc => ?_⟩, fun hrun hnot => ⟨?_, fun hc => ?_⟩,
    fun hstop => ⟨?_, fun hc => ?_⟩⟩
  · simp [hrun, hlast, BitVec.toNat_add]
  · simp [pre_frame he hc, hardwarePhases_pre, tick_of_divCycles s.regs hd, hrun, hlast]
  · simp [hnot]
  · rw [← preAdvanced_toNat (s := s.regs) (by omega), pre_frame he hc, hardwarePhases_pre,
      tick_of_divCycles s.regs hd]
    simp [hrun, hnot]
  · simp [hstop]
  · simp [pre_frame he hc, hardwarePhases_pre, hstop]

/-- Settles O29: no command writes `cnt` or `ovf`, and the timer advances the pair (`timestamp_hardwarePhases`). -/
theorem wrapRule : Obligations.WrapRule := by
  intro s hr
  obtain ⟨e, he, hs⟩ := step_run s hr
  refine ⟨_, hs, wrap_eq_decide s.regs, ?_, ?_⟩
  · rw [State.advance_regs, (captureFrame he).ovf, hardwarePhases_ovf, wrap_eq_decide]
    by_cases hw : tick s.regs = true ∧ s.regs.cnt.toNat = 65535 <;> simp [hw, BitVec.toNat_add]
  · rw [State.advance_regs, (captureFrame he).ovf, (captureFrame he).cnt, timestamp_hardwarePhases]

/-- A capture sets `cap_new`, whatever POLLCAP and the sequencer do (R97, R118). -/
theorem capNew_of_hit {s : State} {e : Option Effect} (he : PortEffect s e) (hb : ¬ BeginAccepted s)
    (hh : hit s.regs s.inputs.echoIn = true) : (cycleRegs s.regs s.inputs.echoIn e).capNew = true := by
  by_cases hp : Presents s .pollCap ∧ busy s.regs = false
  · rw [capNew_of_polled he hb hp, hh]
  · rw [capNew_of_not_polled he hb hp, hh, Bool.true_or]

/-- Settles O30: the capture unit's frame, split on a transition of the armed edge (`hit_iff`). -/
theorem captureRule : Obligations.CaptureRule := by
  intro s hr
  obtain ⟨e, he, hs⟩ := step_run s hr
  have hc := captureFrame he
  refine ⟨_, hs, hc.echoQ, ?_⟩
  rw [State.advance_regs, hc.capTick, hc.capOvf, hc.capEdge]
  split
  next h =>
    have hh := (hit_iff _ _).2 h
    simpa [hh] using fun hb => capNew_of_hit he hb hh
  next h =>
    have hh := mt (hit_iff _ _).1 h
    simp [hh]

end TimerAndCaptureUnit

section BusyCycles

/-- What a cycle without reset leaves in the registers while busy: the hardware's registers as the timer and the
sequencer leave them, the capture unit's, and the host's, which it cannot write (R81, R117, R124). -/
structure BusyCycle (s : State) (r : Registers) : Prop extends HardwareFrame s r, CaptureFrame s r, BusyFrame s r where
  capNew : r.capNew = (hit s.regs s.inputs.echoIn || (s.regs.capNew && !accept s.regs && !discard s.regs))
  resValid : s.regs.resValid = false → r.resValid = (hardwarePhases s.regs).resValid

theorem busy_step {s : State} (hr : s.inputs.rst = false) (hb : busy s.regs = true) :
    ∃ t, step s = .next t ∧ BusyCycle s t.regs := by
  obtain ⟨e, he, hs⟩ := step_run s hr
  have hbegin := busy_not_begin hb
  exact ⟨_, hs, { hardwareFrame he hbegin, captureFrame he, busyFrame he hb with
    capNew := capNew_busy he hb
    resValid := fun hv => resValid_frame he hbegin (by simp [hv]) }⟩

variable {s : Registers}

/-- `accept` in the two awaiting states (R94). -/
theorem accept_rise_iff (hs : s.state = .awaitingRisingEdge) :
    accept s = true ↔ s.capNew = true ∧ s.capEdge = .rising := by
  simp [accept, want, hs]

theorem accept_fall_iff (hs : s.state = .awaitingFallingEdge) :
    accept s = true ↔ s.capNew = true ∧ s.capEdge = .falling := by
  simp [accept, want, hs]

/-! The equation of `hardwarePhases` for each operation that accepts or waits (R99 to R103). -/

theorem hardwarePhases_acceptRise (hs : s.state = .awaitingRisingEdge) (ha : accept s = true) :
    hardwarePhases s =
      { timerPhase s s with startTick := s.capTick, startOvf := s.capOvf, capNew := false, armed := .falling,
                            state := .awaitingFallingEdge, waitWraps := 0 } :=
  sequencerPhase_acceptRise s _ hs ha

theorem hardwarePhases_acceptFall (hs : s.state = .awaitingFallingEdge) (ha : accept s = true) :
    hardwarePhases s =
      { timerPhase s s with endTick := s.capTick, endOvf := s.capOvf, capNew := false, armed := .rising,
                            state := .computing, waitWraps := 0 } :=
  sequencerPhase_acceptFall s _ hs ha

theorem hardwarePhases_waiting (hw : awaiting s = true) (ha : accept s = false) (he : expire s = false) :
    hardwarePhases s =
      { timerPhase s s with capNew := s.capNew && !discard s,
                            waitWraps := if wrap s then s.waitWraps + 1 else s.waitWraps } := by
  rw [hardwarePhases, sequencerPhase_waiting s _ hw ha]
  simp [he]

theorem hardwarePhases_timeout (hw : awaiting s = true) (ha : accept s = false) (he : expire s = true) :
    hardwarePhases s = enterTimedOut { timerPhase s s with capNew := s.capNew && !discard s } := by
  rw [hardwarePhases, sequencerPhase_waiting s _ hw ha]
  simp [he]

/-- An awaiting state that accepts nothing keeps the pulse window, also where it times out (R101 to R103). -/
theorem window_kept_waiting (hw : awaiting s = true) (ha : accept s = false) :
    (hardwarePhases s).startTick = s.startTick ∧ (hardwarePhases s).startOvf = s.startOvf ∧
      (hardwarePhases s).endTick = s.endTick ∧ (hardwarePhases s).endOvf = s.endOvf := by
  cases he : expire s with
  | false => simp [hardwarePhases_waiting hw ha he]
  | true => simp [hardwarePhases_timeout hw ha he]

end BusyCycles

section SequencerOperations

/-- Settles O32: TRIGSTEP is the sequencer's one operation in Triggering. -/
theorem trigStepRule : Obligations.TrigStepRule := by
  intro s hr hs
  obtain ⟨t, ht, hc⟩ := busy_step hr (by simp [busy, hs])
  refine ⟨t, ht, ?_⟩
  rw [hc.state, hc.trig, hc.trigCnt, hc.waitWraps, hardwarePhases_triggering s.regs hs, trigStepOp]
  refine ⟨fun hk => by simp [hk, hs], fun hk hlt => ?_, fun hk hle => by simp [hk, hs, hle]⟩
  have hbound := s.regs.trigTicks.isLt
  have hfits : s.regs.trigCnt.toNat + 1 < 65536 := by omega
  simpa [hk, hs, Nat.not_le.2 hlt] using hfits

/-- Settles O33: the acceptance excludes a timeout, and nothing else writes `cap_new` but the capture unit. -/
theorem acceptRiseRule : Obligations.AcceptRiseRule := by
  intro s hr hs hn hedge
  have ha := (accept_rise_iff hs).2 ⟨hn, hedge⟩
  obtain ⟨t, ht, hc⟩ := busy_step hr (by simp [busy, hs])
  refine ⟨t, ht, ?_⟩
  rw [hc.startTick, hc.startOvf, hc.capNew, hc.armed, hc.state, hc.waitWraps, hc.resKind, hc.endTick, hc.endOvf, hc.raw,
    hardwarePhases_acceptRise hs ha]
  simp [ha]

/-- Settles O34: as O33, for the falling edge. -/
theorem acceptFallRule : Obligations.AcceptFallRule := by
  intro s hr hs hn hedge
  have ha := (accept_fall_iff hs).2 ⟨hn, hedge⟩
  obtain ⟨t, ht, hc⟩ := busy_step hr (by simp [busy, hs])
  refine ⟨t, ht, ?_⟩
  rw [hc.endTick, hc.endOvf, hc.capNew, hc.armed, hc.state, hc.waitWraps, hc.resKind, hc.startTick, hc.startOvf, hc.raw,
    hardwarePhases_acceptFall hs ha]
  simp [ha]

/-- An event of the polarity not awaited is one to discard, and not one to accept (R94). -/
theorem discard_of_wrong_edge {s : Registers} (hn : s.capNew = true)
    (hs : (s.state = .awaitingRisingEdge ∧ s.capEdge = .falling) ∨
      (s.state = .awaitingFallingEdge ∧ s.capEdge = .rising)) :
    awaiting s = true ∧ accept s = false ∧ discard s = true := by
  rcases hs with ⟨hs, hedge⟩ | ⟨hs, hedge⟩ <;> simp [awaiting, accept, discard, want, hs, hedge, hn]

/-- Settles O35: the state accepts nothing and so keeps the window, and short of a timeout its state and arming. -/
theorem discardRule : Obligations.DiscardRule := by
  intro s hr hn hwrong
  obtain ⟨hw, ha, hd⟩ := discard_of_wrong_edge hn hwrong
  obtain ⟨t, ht, hc⟩ := busy_step hr (awaiting_busy hw)
  obtain ⟨hst, hso, het, heo⟩ := window_kept_waiting hw ha
  refine ⟨t, ht, by simp [hc.capNew, hd], hc.startTick.trans hst, hc.startOvf.trans hso, hc.endTick.trans het,
    hc.endOvf.trans heo, fun hno => ?_⟩
  have he : expire s.regs = false := Bool.eq_false_iff.2 fun he => by
    obtain ⟨hk, hle⟩ := (expire_iff s.regs hw ha).1 he
    rcases hno with hno | hno
    · simp [hk] at hno
    · omega
  rw [hc.state, hc.armed, hardwarePhases_waiting hw ha he]
  simp

/-- Settles O37: at the deadline's wrap the sequencer enters TimedOut, and the capture unit still latches. -/
theorem timeoutRule : Obligations.TimeoutRule := by
  intro s hr hv hw ha hk hle
  obtain ⟨t, ht, hc⟩ := busy_step hr (awaiting_busy hw)
  refine ⟨t, ht, ?_⟩
  rw [hc.state, hc.resKind, hc.resDist, hc.resValid hv, hc.armed, hc.raw, hc.startTick, hc.startOvf, hc.endTick,
    hc.endOvf, hc.waitWraps, hc.trigCnt, hc.trig, hc.capNew,
    hardwarePhases_timeout hw ha ((expire_iff s.regs hw ha).2 ⟨hk, hle⟩)]
  simp [ha]

/-- Settles O38: COMPUTE is the sequencer's one operation in Computing. -/
theorem computeRule : Obligations.ComputeRule := by
  intro s hr hv hs
  obtain ⟨t, ht, hc⟩ := busy_step hr (by simp [busy, hs])
  refine ⟨t, ht, ?_⟩
  rw [hc.state, hc.resValid hv, hc.raw, hc.resKind, hc.resDist, hc.startTick, hc.startOvf, hc.endTick, hc.endOvf,
    hc.armed, hardwarePhases_computing s.regs hs, computeOp, if_pos hs]
  simp

end SequencerOperations

section Transitions

variable {s : Registers}

/-! `state` after the sequencer, by the state it finds (R106). -/

theorem hardwarePhases_state_triggering (hs : s.state = .triggering) :
    (hardwarePhases s).state =
      if tick s = true ∧ s.trigTicks.toNat ≤ s.trigCnt.toNat + 1 then .awaitingRisingEdge else .triggering := by
  rw [hardwarePhases_triggering s hs, trigStepOp]
  by_cases hk : tick s = true <;> by_cases hle : s.trigTicks.toNat ≤ s.trigCnt.toNat + 1 <;> simp [hk, hle, hs]

/-- An awaiting state that accepts nothing stays or, at the deadline's wrap, times out. -/
theorem hardwarePhases_state_waiting (hw : awaiting s = true) (ha : accept s = false) :
    (hardwarePhases s).state =
      if wrap s = true ∧ s.deadline.toNat ≤ s.waitWraps.toNat + 1 then .timedOut else s.state := by
  have hiff := expire_iff s hw ha
  cases he : expire s with
  | false =>
    rw [he] at hiff
    rw [if_neg (mt hiff.2 Bool.false_ne_true), hardwarePhases_waiting hw ha he, timerPhase_state]
  | true => rw [if_pos (hiff.1 he), hardwarePhases_timeout hw ha he, enterTimedOut_state]

theorem hardwarePhases_state_awaitingRise (hs : s.state = .awaitingRisingEdge) :
    (hardwarePhases s).state =
      if s.capNew = true ∧ s.capEdge = .rising then .awaitingFallingEdge
      else if wrap s = true ∧ s.deadline.toNat ≤ s.waitWraps.toNat + 1 then .timedOut else .awaitingRisingEdge := by
  split
  next h => rw [hardwarePhases_acceptRise hs ((accept_rise_iff hs).2 h)]
  next h =>
    rw [hardwarePhases_state_waiting ((awaiting_iff s).2 (.inl hs)) (Bool.eq_false_iff.2 (mt (accept_rise_iff hs).1 h)),
      hs]

theorem hardwarePhases_state_awaitingFall (hs : s.state = .awaitingFallingEdge) :
    (hardwarePhases s).state =
      if s.capNew = true ∧ s.capEdge = .falling then .computing
      else if wrap s = true ∧ s.deadline.toNat ≤ s.waitWraps.toNat + 1 then .timedOut else .awaitingFallingEdge := by
  split
  next h => rw [hardwarePhases_acceptFall hs ((accept_fall_iff hs).2 h)]
  next h =>
    rw [hardwarePhases_state_waiting ((awaiting_iff s).2 (.inr hs)) (Bool.eq_false_iff.2 (mt (accept_fall_iff hs).1 h)),
      hs]

theorem hardwarePhases_state_computing (hs : s.state = .computing) : (hardwarePhases s).state = .idle := by
  rw [hardwarePhases_computing s hs, computeOp, if_pos hs]

theorem hardwarePhases_state_resting (hb : busy s = false) : (hardwarePhases s).state = s.state := by
  rw [hardwarePhases_of_resting s hb]

end Transitions

section TransitionTable

/-- Settles O39: reset and an accepted BEGIN apart, `state` is what the sequencer leaves, by the state it finds. -/
theorem transitionTable : Obligations.TransitionTable := by
  intro s t h
  obtain ⟨hr, rfl⟩ | ⟨hr, e, he, rfl⟩ := step_cases h
  · simp [hr, Registers.reset]
  have hkept (hb : ¬ BeginAccepted s) :
      (cycleRegs s.regs s.inputs.echoIn e).state = (hardwarePhases s.regs).state := (hardwareFrame he hb).state
  have hbusy (hb : busy s.regs = true) := hkept (busy_not_begin hb)
  rw [State.advance_regs]
  refine ⟨fun hrst => by simp [hr] at hrst, fun _ hs => ⟨fun hb => ?_, fun hb => ?_⟩, fun _ hs => ?_,
    fun _ hs => ?_, fun _ hs => ?_, fun _ hs => ?_⟩
  · rw [effect_of_begin he hb, cycleRegs_begin, clearedForBegin_state]
  · rw [hkept hb, hardwarePhases_state_resting (by rcases hs with hs | hs <;> simp [busy, hs])]
  · rw [hbusy (by simp [busy, hs]), hardwarePhases_state_triggering hs]
  · rw [hbusy (by simp [busy, hs]), hardwarePhases_state_awaitingRise hs]
  · rw [hbusy (by simp [busy, hs]), hardwarePhases_state_awaitingFall hs]
  · rw [hbusy (by simp [busy, hs]), hardwarePhases_state_computing hs]

end TransitionTable
end Sys2Proof.Machine

/-! # Edges, pulses and the end of a measurement (R105, R156, R169, R170, R172)

`remainingTicks` counts ticks: every tick of a cycle after which the measurement still runs takes one from it
(`SequencerCase.remainingTicks_le`). That bounds the cycles left (R169), and it bounds the ticks of an echo pulse below
2^32, so that RawTicks counts them exactly (R170). -/

namespace Sys2Proof.Machine

section Timestamps

/-- Settles O44: RawTicks is a difference modulo 2^32 of two numbers below 2^32. -/
theorem rawTicksIsTimestampDifference : Obligations.RawTicksIsTimestampDifference := by
  intro so st eo et n hn
  have hstart := timestamp_lt so st
  have hend := timestamp_lt eo et
  rw [rawTicks, BitVec.toNat_ofInt]
  omega

/-- Settles O60, by induction on the cycles: each adds its tick (`wrapRule`). -/
theorem timestampCountsTicks : Obligations.TimestampCountsTicks := by
  intro k
  induction k with
  | zero =>
    intro s t _ h
    obtain rfl : s = t := Host.Outcome.next.inj h
    simp [ticksIn, Nat.mod_eq_of_lt (timestamp_lt _ _)]
  | succ k ih =>
    intro s t hno h
    obtain ⟨u, hs, _, _, hstamp⟩ := wrapRule s (hno 0 (by omega) s rfl)
    rw [run_succ k hs] at h
    rw [ih u t (noReset_succ hno hs).2 h, hstamp, ticksIn_succ k hs]
    omega

end Timestamps

section RemainingTicks

variable {s m : Registers}

@[simp] theorem timerPhase_deadline (n : Registers) : (timerPhase s n).deadline = n.deadline := by rw [timerPhase_eq]
@[simp] theorem timerPhase_trigTicks (n : Registers) : (timerPhase s n).trigTicks = n.trigTicks := by rw [timerPhase_eq]

@[simp] theorem busy_timerPhase (n : Registers) : busy (timerPhase s n) = busy n := by
  simp only [busy, timerPhase_state]

/-- `cnt` after the timer's phase as a number: 0 at a wrap, and otherwise the tick added (R95, R96). -/
theorem timerPhase_cnt_of_wrap (hk : wrap s = true) : (timerPhase s s).cnt.toNat = 0 := by
  obtain ⟨ht, hc⟩ := (wrap_iff s).1 hk
  simp [timerPhase_eq, ht, hc, BitVec.toNat_add]

theorem timerPhase_cnt_of_no_wrap (hk : wrap s = false) :
    (timerPhase s s).cnt.toNat = s.cnt.toNat + if tick s = true then 1 else 0 := by
  have hlt := s.cnt.isLt
  cases ht : tick s with
  | false => simp [timerPhase_eq, ht]
  | true =>
    have hne : s.cnt.toNat ≠ 65535 := fun hc => by simp [(wrap_iff s).2 ⟨ht, hc⟩] at hk
    have hone : (1 : BitVec 16).toNat = 1 := rfl
    simp only [timerPhase_eq, ht, if_true]
    rw [BitVec.toNat_add_of_lt (by omega), hone]

/-- While a measurement runs and its window is not closed, a tick is left. -/
theorem remainingTicks_pos (hs : s.Inv) (hb : busy s = true) (hnc : s.state ≠ .computing) :
    1 ≤ remainingTicks s := by
  have hcnt := s.cnt.isLt
  cases hst : s.state with
  | idle => simp [busy, hst] at hb
  | timedOut => simp [busy, hst] at hb
  | computing => exact absurd hst hnc
  | triggering =>
    have hleft := hs.trigCountBelow hst
    simp only [remainingTicks, hst]
    omega
  | awaitingRisingEdge =>
    have hwait := hs.waitCountBelow ((awaiting_iff s).2 (.inl hst))
    simp only [remainingTicks, hst, Config.timerRange]
    omega
  | awaitingFallingEdge =>
    have hwait := hs.waitCountBelow ((awaiting_iff s).2 (.inr hst))
    simp only [remainingTicks, hst, Config.timerRange]
    omega

/-- A cycle after which the measurement still runs, its window not closed, takes its tick from those left. -/
theorem SequencerCase.remainingTicks_le (hc : SequencerCase s (timerPhase s s) m) (hs : s.Inv) (hb : busy m = true)
    (hnc : m.state ≠ .computing) : remainingTicks m + (if tick s = true then 1 else 0) ≤ remainingTicks s := by
  have hcnt := s.cnt.isLt
  have hone : (1 : BitVec 16).toNat = 1 := rfl
  cases hc with
  | rests hrest => simp [hrest] at hb
  | pulseHolds hst ht => simp [remainingTicks, hst, ht]
  | pulseCounts hst ht hlt =>
    have hbound := s.trigTicks.isLt
    have hcount : (s.trigCnt + 1).toNat = s.trigCnt.toNat + 1 := by rw [BitVec.toNat_add_of_lt (by omega), hone]
    simp only [remainingTicks, timerPhase_state, timerPhase_trigTicks, timerPhase_deadline, hst, ht, hcount, if_true]
    omega
  | pulseEnds hst ht hle =>
    have hleft := hs.trigCountBelow hst
    simp only [remainingTicks, hst, ht, timerPhase_deadline, Config.timerRange, if_true]
    omega
  | acceptsRise hst ha =>
    have hwait := hs.waitCountBelow (accept_awaiting s ha)
    simp only [remainingTicks, hst, timerPhase_deadline, Config.timerRange]
    split <;> omega
  | acceptsFall hst ha => exact absurd rfl hnc
  | waits hw ha hk =>
    have hnext := timerPhase_cnt_of_no_wrap hk
    have hwait := hs.waitCountBelow hw
    rcases (awaiting_iff s).1 hw with hst | hst <;>
      simp only [remainingTicks, hst, hnext, timerPhase_state, timerPhase_deadline, timerPhase_waitWraps,
        Config.timerRange] <;> omega
  | countsWrap hw ha hk hlt =>
    have hnext := timerPhase_cnt_of_wrap hk
    obtain ⟨ht, hlast⟩ := (wrap_iff s).1 hk
    have hbound := s.deadline.isLt
    have hcount : (s.waitWraps + 1).toNat = s.waitWraps.toNat + 1 := by rw [BitVec.toNat_add_of_lt (by omega), hone]
    rcases (awaiting_iff s).1 hw with hst | hst <;>
      simp only [remainingTicks, hst, hnext, hcount, hlast, ht, timerPhase_state, timerPhase_deadline,
        Config.timerRange, if_true] <;> omega
  | timesOut hw ha he => simp [busy] at hb
  | computes hst => simp [busy] at hb

/-- The sequencer ends a measurement only with a result (R103, R104). -/
theorem SequencerCase.busy_or_result (hc : SequencerCase s (timerPhase s s) m) (hb : busy s = true) :
    busy m = true ∨ m.resValid = true := by
  cases hc with
  | timesOut => exact .inr rfl
  | computes => exact .inr rfl
  | rests hrest => simp [hrest] at hb
  | pulseHolds => exact .inl (by simp [hb])
  | pulseCounts hst => exact .inl (by simp [busy, hst])
  | waits hw => exact .inl (by simpa [busy] using awaiting_busy hw)
  | countsWrap hw => exact .inl (by simpa [busy] using awaiting_busy hw)
  | _ => exact .inl rfl

/-- The bounds read only registers that a busy cycle leaves as the timer and the sequencer leave them. -/
theorem BusyCycle.remaining_eq {s : State} {r : Registers} (hc : BusyCycle s r) :
    remainingTicks r = remainingTicks (hardwarePhases s.regs) ∧
      remainingCycles r = remainingCycles (hardwarePhases s.regs) := by
  simp only [remainingCycles, remainingTicks, cyclesPerTick, hc.state, hc.trigCnt, hc.waitWraps, hc.cnt, hc.pre,
    hc.divSel, hc.deadline, hc.trigTicks, hardwarePhases_divSel, hardwarePhases_deadline, hardwarePhases_trigTicks,
    and_self]

/-- While a measurement runs the divider code has a `DIV` (R45). -/
theorem Registers.Inv.divider (hs : s.Inv) (hb : busy s = true) :
    ∃ d, divCycles s.divSel = some d ∧ cyclesPerTick s = d ∧ s.pre.toNat < d := by
  obtain ⟨_, hconf⟩ := hs.busyRuns hb
  obtain ⟨d, hd⟩ := Option.isSome_iff_exists.1 ((divSelLegal_iff s.divSel).2 (hs.configuredDivider hconf))
  exact ⟨d, hd, by rw [cyclesPerTick, hd, Option.getD_some], hs.prescalerBelow hconf d hd⟩

theorem remainingCycles_eq (hb : busy s = true) (hnc : s.state ≠ .computing) :
    remainingCycles s = remainingTicks s * cyclesPerTick s - s.pre.toNat + 1 := by
  cases hst : s.state with
  | idle => simp [busy, hst] at hb
  | timedOut => simp [busy, hst] at hb
  | computing => exact absurd hst hnc
  | _ => simp only [remainingCycles, hst]

/-- Ticks left and prescaler phase as a number of cycles: a cycle with a tick trades one tick for the whole phase, and
one without a tick advances the phase. -/
theorem cycles_left_lt {ticks ticks' d pre pre' : Nat} (hp : pre < d) (hpos : 1 ≤ ticks)
    (h : (ticks' + 1 ≤ ticks ∧ pre = d - 1 ∧ pre' = 0) ∨ (ticks' ≤ ticks ∧ pre' = pre + 1)) :
    ticks' * d - pre' < ticks * d - pre := by
  have hd : 1 * d ≤ ticks * d := Nat.mul_le_mul_right d hpos
  rcases h with ⟨hle, rfl, rfl⟩ | ⟨hle, rfl⟩
  · have hmul := Nat.mul_le_mul_right d hle
    rw [Nat.add_mul] at hmul
    omega
  · have hmul := Nat.mul_le_mul_right d hle
    omega

/-- What is left of a measurement falls in a cycle after which it still runs (R169). -/
theorem remainingCycles_hardwarePhases_lt (hs : s.Inv) (hb : busy s = true) (hm : busy (hardwarePhases s) = true) :
    remainingCycles (hardwarePhases s) < remainingCycles s := by
  have hc := hardwarePhases_cases s
  have hnc : s.state ≠ .computing := fun hst => by
    simp [busy, hardwarePhases_state_computing hst] at hm
  obtain ⟨d, hd, hper, hp⟩ := hs.divider hb
  have hpos := remainingTicks_pos hs hb hnc
  rw [remainingCycles_eq hb hnc, hper]
  by_cases hmc : (hardwarePhases s).state = .computing
  · have hmul := Nat.mul_le_mul_right d hpos
    simp only [remainingCycles, hmc]
    omega
  · have hticks := hc.remainingTicks_le hs hm hmc
    have hrun := (hs.busyRuns hb).1
    have htick := tick_of_divCycles s hd
    have hle := (divCycles_bounds hd).2
    have hper' : cyclesPerTick (hardwarePhases s) = d := by
      rw [cyclesPerTick, hardwarePhases_divSel, hd, Option.getD_some]
    rw [remainingCycles_eq hm hmc, hper', Nat.add_lt_add_iff_right]
    refine cycles_left_lt hp hpos ?_
    cases ht : tick s with
    | true =>
      have hlast : s.pre.toNat = d - 1 := by simpa [ht, hrun] using htick
      exact .inl ⟨by simpa [ht] using hticks, hlast, by simp [hardwarePhases_pre, hrun, ht]⟩
    | false =>
      have hnot : s.pre.toNat ≠ d - 1 := by simpa [ht, hrun] using htick
      refine .inr ⟨by simpa [ht] using hticks, ?_⟩
      rw [hardwarePhases_pre, if_pos hrun, ht, if_neg Bool.false_ne_true, preAdvanced_toNat (by omega)]

/-- Settles O54: the measurement ends with a result (`SequencerCase.busy_or_result`) or what is left of it falls. -/
theorem remainingCyclesFall : Obligations.RemainingCyclesFall := by
  intro s hs hb hr
  obtain ⟨t, ht, hc⟩ := busy_step hr hb
  refine ⟨t, ht, ?_⟩
  rw [hc.resValid (hs.busyNoResult hb), hc.remaining_eq.2, busy, hc.state, ← busy]
  rcases (hardwarePhases_cases s.regs).busy_or_result hb with hm | hv
  · exact .inr ⟨hm, remainingCycles_hardwarePhases_lt hs hb hm⟩
  · exact .inl hv

end RemainingTicks

section Edges

/-- What a cycle leaves in which an awaiting state accepts nothing and no timeout is due: the state, the arming and the
pulse window as they were, no result, and the invariants (R101, R102). -/
structure StillWaiting (s t : State) : Prop extends BusyCycle s t.regs where
  inv : t.regs.Inv
  sameState : t.regs.state = s.regs.state
  sameArmed : t.regs.armed = s.regs.armed
  sameStartTick : t.regs.startTick = s.regs.startTick
  sameStartOvf : t.regs.startOvf = s.regs.startOvf
  noResult : t.regs.resValid = false

theorem waiting_step {s : State} (hr : s.inputs.rst = false) (hs : s.regs.Inv) (hw : awaiting s.regs = true)
    (ha : accept s.regs = false) (he : expire s.regs = false) : ∃ t, step s = .next t ∧ StillWaiting s t := by
  have hb := awaiting_busy hw
  obtain ⟨t, ht, hc⟩ := busy_step hr hb
  have hhw := hardwarePhases_waiting hw ha he
  have hkeep := window_kept_waiting hw ha
  exact ⟨t, ht, { hc with
    inv := stepKeepsInvariants s t hs ht
    sameState := by rw [hc.state, hhw, timerPhase_state]
    sameArmed := by rw [hc.armed, hhw, timerPhase_armed]
    sameStartTick := hc.startTick.trans hkeep.1
    sameStartOvf := hc.startOvf.trans hkeep.2.1
    noResult := by rw [hc.resValid (hs.busyNoResult hb), hhw, timerPhase_resValid, hs.busyNoResult hb] }⟩

/-- A transition of the armed edge in such a cycle is pending after it, with the pair held in the cycle (R97). -/
structure Latched (s t : State) : Prop extends StillWaiting s t where
  pending : t.regs.capNew = true
  edge : t.regs.capEdge = s.regs.armed
  tickHeld : t.regs.capTick = s.regs.cnt
  ovfHeld : t.regs.capOvf = s.regs.ovf

theorem latching_step {s : State} (hr : s.inputs.rst = false) (hs : s.regs.Inv) (hw : awaiting s.regs = true)
    (ha : accept s.regs = false) (he : expire s.regs = false) (hh : hit s.regs s.inputs.echoIn = true) :
    ∃ t, step s = .next t ∧ Latched s t := by
  obtain ⟨t, ht, hc⟩ := waiting_step hr hs hw ha he
  exact ⟨t, ht, { hc with
    pending := by rw [hc.capNew, hh, Bool.true_or]
    edge := by rw [hc.capEdge, if_pos hh]
    tickHeld := by rw [hc.capTick, if_pos hh]
    ovfHeld := by rw [hc.capOvf, if_pos hh] }⟩

/-- From the rising transition to the wait for the falling one, two cycles (R172): the echo level cannot fall as an
armed edge in the second of them, in which Rising is still armed (R156). -/
structure RiseAccepted (s t u : State) : Prop where
  first : step s = .next t
  second : step t = .next u
  stateBetween : t.regs.state = .awaitingRisingEdge
  state : u.regs.state = .awaitingFallingEdge
  startTick : u.regs.startTick = s.regs.cnt
  startOvf : u.regs.startOvf = s.regs.ovf
  nothingPending : u.regs.capNew = false
  echoQ : u.regs.echoQ = t.inputs.echoIn
  inv : u.regs.Inv

theorem rise_accepted {s : State} (hs : s.regs.Inv) (hst : s.regs.state = .awaitingRisingEdge)
    (ha : accept s.regs = false) (he : expire s.regs = false) (hin : s.inputs.echoIn = true)
    (hq : s.regs.echoQ = false) (hno : NoReset 2 s) : ∃ t u, RiseAccepted s t u := by
  have harmed := hs.armedRising (.inr (.inl hst))
  obtain ⟨t, ht, hl⟩ := latching_step (hno 0 (by omega) s rfl) hs ((awaiting_iff s.regs).2 (.inl hst)) ha he
    ((hit_iff _ _).2 (.inl ⟨harmed, hin, hq⟩))
  obtain ⟨_, hno1⟩ := noReset_succ hno ht
  have hrt : t.inputs.rst = false := hno1 0 (by omega) t rfl
  have hmiss : hit t.regs t.inputs.echoIn = false := by
    simp [hit, rise, hl.sameArmed, harmed, hl.echoQ, hin]
  obtain ⟨u, hu, htick, hovf, hcap, _, hstate, _⟩ :=
    acceptRiseRule t hrt (hl.sameState.trans hst) hl.pending (hl.edge.trans harmed)
  obtain ⟨v, hv, hecho, _⟩ := captureRule t hrt
  obtain rfl : u = v := Host.Outcome.next.inj (hu.symm.trans hv)
  exact ⟨t, u, ht, hu, hl.sameState.trans hst, hstate, htick.trans hl.tickHeld, hovf.trans hl.ovfHeld,
    hcap.trans hmiss, hecho, stepKeepsInvariants t u hl.inv hu⟩

/-- Settles O57: a transition is latched in its cycle, accepted in the next, and a window closed so is computed in the
third; the invariants give `res_valid` = 0 until then. -/
theorem edgeToResultLatency : Obligations.EdgeToResultLatency := by
  intro s hs ha he
  refine ⟨fun hst hin hq hno => ?_, fun hst hin hq hno => ?_⟩
  · have harmed := hs.armedFalling hst
    obtain ⟨t1, h1, hl⟩ := latching_step (hno 0 (by omega) s rfl) hs ((awaiting_iff s.regs).2 (.inr hst)) ha he
      ((hit_iff _ _).2 (.inr ⟨harmed, hin, hq⟩))
    have hno1 := (noReset_succ hno h1).2
    obtain ⟨t2, h2, hetick, heovf, _, _, hst2, _, _, hstick, hsovf, _⟩ :=
      acceptFallRule t1 (hno1 0 (by omega) t1 rfl) (hl.sameState.trans hst) hl.pending (hl.edge.trans harmed)
    have hno2 := (noReset_succ hno1 h2).2
    have hv2 := (stepKeepsInvariants t1 t2 hl.inv h2).busyNoResult (by simp [busy, hst2])
    obtain ⟨t3, h3, hst3, hv3, hraw, _⟩ := computeRule t2 (hno2 0 (by omega) t2 rfl) hv2 hst2
    refine ⟨t1, t2, t3, h1, h2, h3, hl.sameState.trans hst, hl.noResult, hst2, hv2, hst3, hv3, ?_⟩
    rw [hraw, hsovf, hstick, heovf, hetick, hl.sameStartOvf, hl.sameStartTick, hl.ovfHeld, hl.tickHeld]
  · obtain ⟨t1, t2, h⟩ := rise_accepted hs hst ha he hin hq hno
    exact ⟨t1, t2, h.first, h.second, h.stateBetween, h.state, h.startTick, h.startOvf⟩

/-- Where nothing is pending nothing is accepted (R94). -/
theorem accept_of_nothing_pending {s : Registers} (hn : s.capNew = false) : accept s = false := by
  unfold accept
  split <;> simp [hn]

/-- Settles O58: the falling transition comes in the cycle that accepts the rising one, with Rising still armed. -/
theorem oneCyclePulseMissesItsEnd : Obligations.OneCyclePulseMissesItsEnd := by
  intro s hs hst hn hin hq he hno
  obtain ⟨t1, t2, h⟩ := rise_accepted hs hst (accept_of_nothing_pending hn) he hin hq hno
  exact ⟨t1, h.first, fun hlow =>
    ⟨t2, h.second, h.state, h.nothingPending, h.echoQ.trans hlow, h.startTick, h.startOvf⟩⟩

end Edges

section Pulses

/-- The sequencer waits for the end of an echo pulse that lasts (R170). -/
structure PulseRuns (r : Registers) : Prop where
  inv : r.Inv
  state : r.state = .awaitingFallingEdge
  nothingPending : r.capNew = false
  echoHigh : r.echoQ = true

/-- A cycle of the lasting pulse: no edge is captured, the window's start stays, and a tick of the cycle is one of those
left before the deadline. -/
theorem PulseRuns.high_step {s : State} (hp : PulseRuns s.regs) (hr : s.inputs.rst = false)
    (hin : s.inputs.echoIn = true) (he : expire s.regs = false) :
    ∃ t, step s = .next t ∧ PulseRuns t.regs ∧ t.regs.startTick = s.regs.startTick ∧
      t.regs.startOvf = s.regs.startOvf ∧
      remainingTicks t.regs + (if tick s.regs = true then 1 else 0) ≤ remainingTicks s.regs := by
  obtain ⟨hs, hst, hn, _⟩ := hp
  obtain ⟨t, ht, hc⟩ :=
    waiting_step hr hs ((awaiting_iff s.regs).2 (.inr hst)) (accept_of_nothing_pending hn) he
  have hstate : t.regs.state = .awaitingFallingEdge := hc.sameState.trans hst
  have hmiss : hit s.regs s.inputs.echoIn = false := by simp [hit, fall, hs.armedFalling hst, hin]
  have hhw : (hardwarePhases s.regs).state = .awaitingFallingEdge := hc.state.symm.trans hstate
  refine ⟨t, ht, ⟨hc.inv, hstate, by simp [hc.capNew, hmiss, hn], hc.echoQ.trans hin⟩, hc.sameStartTick,
    hc.sameStartOvf, ?_⟩
  rw [hc.remaining_eq.1]
  exact (hardwarePhases_cases s.regs).remainingTicks_le hs (by simp [busy, hhw]) (by simp [hhw])

/-- The rest of a pulse that falls after `j` more cycles, by induction on them: the result of the window that ends with
the pair then held, and fewer ticks than were left before the deadline. -/
theorem PulseRuns.measured (j : Nat) : ∀ s : State, PulseRuns s.regs → EchoFallsAt j s → NoDeadline j s →
    NoReset (j + 3) s →
    ∃ u t, Host.Core.run Sys2Proof.core j s = .next u ∧ Host.Core.run Sys2Proof.core (j + 3) s = .next t ∧
      t.regs.state = .idle ∧ t.regs.resValid = true ∧
      t.regs.raw = rawTicks s.regs.startOvf s.regs.startTick u.regs.ovf u.regs.cnt ∧
      ticksIn j s ≤ remainingTicks s.regs := by
  induction j with
  | zero =>
    intro s hp hecho hdead hno
    obtain ⟨hs, hst, hn, hq⟩ := hp
    obtain ⟨hfall, _⟩ := edgeToResultLatency s hs (accept_of_nothing_pending hn) (hdead 0 (by omega) s rfl)
    obtain ⟨t1, t2, t3, h1, h2, h3, _, _, _, _, hidle, hvalid, hraw⟩ := hfall hst (hecho.2 s rfl) hq hno
    exact ⟨s, t3, rfl, (run_succ 2 h1).trans ((run_succ 1 h2).trans (run_succ 0 h3)), hidle, hvalid, hraw,
      Nat.zero_le _⟩
  | succ j ih =>
    intro s hp hecho hdead hno
    obtain ⟨v, hv, hpv, htick, hovf, hleft⟩ :=
      hp.high_step (hno 0 (by omega) s rfl) (hecho.1 0 (by omega) s rfl) (hdead 0 (by omega) s rfl)
    obtain ⟨u, t, hu, ht, hidle, hvalid, hraw, hticks⟩ :=
      ih v hpv (echoFallsAt_succ hecho hv).2 (noDeadline_succ hdead hv).2 (noReset_succ hno hv).2
    refine ⟨u, t, by rw [run_succ _ hv, hu], by rw [Nat.add_right_comm, run_succ _ hv, ht], hidle, hvalid, ?_, ?_⟩
    · rw [hraw, htick, hovf]
    · rw [ticksIn_succ _ hv]
      omega

/-- One deadline of an awaiting state is at most 65535 wraps (R37). -/
theorem remainingTicks_awaitingFall_le {s : Registers} (hst : s.state = .awaitingFallingEdge) :
    remainingTicks s ≤ 65535 * 65536 := by
  have hlt := s.deadline.isLt
  simp only [remainingTicks, hst, Config.timerRange]
  omega

/-- Settles O59: the rising transition's two cycles (`rise_accepted`), then the rest of the pulse
(`PulseRuns.measured`); the ticks of the pulse are fewer than 2^32, so RawTicks is their number. -/
theorem echoPulseIsMeasured : Obligations.EchoPulseIsMeasured := by
  intro s k hs hst hn hq hk hecho hdead hno
  obtain ⟨j, rfl⟩ : ∃ j, k = j + 2 := ⟨k - 2, by omega⟩
  obtain ⟨t1, t2, hrise⟩ := rise_accepted hs hst (accept_of_nothing_pending hn) (hdead 0 (by omega) s rfl)
    (hecho.1 0 (by omega) s rfl) hq (noReset_mono hno (by omega))
  have hecho1 := (echoFallsAt_succ hecho hrise.first).2
  have hdead1 := (noDeadline_succ hdead hrise.first).2
  have hno1 := (noReset_succ (k := j + 4) hno hrise.first).2
  have hp : PulseRuns t2.regs :=
    ⟨hrise.inv, hrise.state, hrise.nothingPending, hrise.echoQ.trans (hecho1.1 0 (by omega) t1 rfl)⟩
  obtain ⟨u, t, hu, ht, hidle, hvalid, hraw, hticks⟩ := hp.measured j t2 (echoFallsAt_succ hecho1 hrise.second).2
    (noDeadline_succ hdead1 hrise.second).2 (noReset_succ (k := j + 3) hno1 hrise.second).2
  have hleft := remainingTicks_awaitingFall_le hrise.state
  have hcount := ticksIn_succ (j + 1) hrise.first
  rw [ticksIn_succ j hrise.second] at hcount
  have hbound : ticksIn (j + 2) s < 4294967296 := by
    rw [hcount]
    split <;> split <;> omega
  have hrun : Host.Core.run Sys2Proof.core (j + 2) s = .next u := by
    rw [run_succ _ hrise.first, run_succ _ hrise.second, hu]
  have hstamp := timestampCountsTicks (j + 2) s u (noReset_mono hno (by omega)) hrun
  refine ⟨t, ?_, hidle, hvalid, ?_⟩
  · rw [show j + 2 + 3 = j + 3 + 1 + 1 by omega, run_succ _ hrise.first, run_succ _ hrise.second, ht]
  · rw [hraw, hrise.startOvf, hrise.startTick]
    exact (rawTicksIsTimestampDifference _ _ _ _ _ hbound).2 hstamp.symm

end Pulses
end Sys2Proof.Machine

/-! # The distance converter (45_distance_converter.md)

`distanceCm_eq_iff` says which integer `distanceCm` is (R110), and the two lemmas after it what `convert` answers for a
distance inside and outside the bounds (R111). The widths (R112) and the order of the distances (R113) follow from the
product `raw * scale` alone. -/

namespace Sys2Proof.Machine

section RoundingAndRange

/-- The distance is the integer nearest to `raw * scale / 65536`, an exact half rounded up (R110). -/
theorem distanceCm_eq_iff (raw scale d : Nat) :
    distanceCm raw scale = d ↔
      2 * raw * scale < (2 * d + 1) * 65536 ∧ 2 * d * 65536 ≤ 2 * raw * scale + 65536 := by
  rw [distanceCm_eq, Nat.mul_assoc 2 raw scale]
  omega

/-- A distance within the bounds is answered, both bounds included; it is at most `dmax`, so its 16 bits hold it
(R109, R111). -/
theorem convert_inRange {raw : BitVec 32} {scale : BitVec 24} {dmin dmax : BitVec 16}
    (hmin : dmin.toNat ≤ distanceCm raw.toNat scale.toNat) (hmax : distanceCm raw.toNat scale.toNat ≤ dmax.toNat) :
    (convert raw scale dmin dmax).1 = .inRange ∧
      (convert raw scale dmin dmax).2.toNat = distanceCm raw.toNat scale.toNat := by
  have hfits : distanceCm raw.toNat scale.toNat < 2 ^ 16 := lt_of_le_of_lt hmax dmax.isLt
  rw [convert, if_pos ⟨hmin, hmax⟩]
  exact ⟨rfl, (BitVec.toNat_ofNat _ 16).trans (Nat.mod_eq_of_lt hfits)⟩

/-- A distance outside the bounds, compared at full width, is answered with 0 (R111). -/
theorem convert_outOfRange {raw : BitVec 32} {scale : BitVec 24} {dmin dmax : BitVec 16}
    (h : distanceCm raw.toNat scale.toNat < dmin.toNat ∨ dmax.toNat < distanceCm raw.toNat scale.toNat) :
    convert raw scale dmin dmax = (.outOfRange, 0) := by
  rw [convert, if_neg]
  rintro ⟨hmin, hmax⟩
  exact h.elim (not_lt_of_ge hmin) (not_lt_of_ge hmax)

/-- Settles O45: the nearest integer is `distanceCm` (`distanceCm_eq_iff`), and the range check decides on it. -/
theorem converterRoundsAndClassifies : Obligations.ConverterRoundsAndClassifies := by
  intro raw scale dmin dmax d hbelow habove
  obtain rfl := (distanceCm_eq_iff raw.toNat scale.toNat d).2 ⟨hbelow, habove⟩
  exact ⟨convert_inRange, convert_outOfRange⟩

end RoundingAndRange

section WidthsAndOrder

/-- The distance is non-decreasing in the tick count and in the scale (R113). -/
theorem distanceCm_mono {raw1 raw2 scale1 scale2 : Nat} (hraw : raw1 ≤ raw2) (hscale : scale1 ≤ scale2) :
    distanceCm raw1 scale1 ≤ distanceCm raw2 scale2 := by
  rw [distanceCm_eq, distanceCm_eq]
  exact Nat.div_le_div_right (Nat.add_le_add_right (Nat.mul_le_mul hraw hscale) 32768)

/-- The product with its rounding term fits 56 bits (R112). -/
theorem roundedProduct_lt (raw : BitVec 32) (scale : BitVec 24) : raw.toNat * scale.toNat + 32768 < 2 ^ 56 := by
  have hproduct : raw.toNat * scale.toNat ≤ (2 ^ 32 - 1) * (2 ^ 24 - 1) :=
    Nat.mul_le_mul (Nat.le_pred_of_lt raw.isLt) (Nat.le_pred_of_lt scale.isLt)
  omega

/-- The distance fits 40 bits: the rounded product's 56 without the 16 shifted out (R112). -/
theorem distanceCm_lt (raw : BitVec 32) (scale : BitVec 24) : distanceCm raw.toNat scale.toNat < 2 ^ 40 := by
  rw [distanceCm_eq]
  exact Nat.div_lt_of_lt_mul (roundedProduct_lt raw scale)

/-- Settles O46: the product orders the distances (`distanceCm_mono`), and its width bounds theirs. -/
theorem converterMonotone : Obligations.ConverterMonotone :=
  ⟨fun _ _ _ _ => distanceCm_mono, fun raw scale => ⟨roundedProduct_lt raw scale, distanceCm_lt raw scale⟩⟩

end WidthsAndOrder
end Sys2Proof.Machine

/-! # The clock cycle as a whole (46_cycle_step.md)

`step_reset` and `step_run` say what a cycle with `rst` = 1 and one with `rst` = 0 are. Both end in `State.advance`, which
consumes the inputs of the cycle and counts it. -/

namespace Sys2Proof.Machine

/-- A step answers no fault and no refusal: whatever the inputs, it ends the cycle with some registers and outputs
(R120). -/
theorem exists_step_eq_advance (s : State) : ∃ regs out, step s = .next (s.advance regs out) := by
  cases hrst : s.inputs.rst with
  | true => exact ⟨_, _, step_reset s hrst⟩
  | false =>
    obtain ⟨_, _, hstep⟩ := step_run s hrst
    exact ⟨_, _, hstep⟩

/-- Settles O7: every step ends the cycle (`exists_step_eq_advance`), and `State.advance` drops one entry of the inputs
and counts one cycle. -/
theorem everyCycleHasNextState : Obligations.EveryCycleHasNextState := by
  intro s
  obtain ⟨regs, out, hstep⟩ := exists_step_eq_advance s
  exact ⟨_, hstep, s.advance_stimulus regs out, s.advance_cycle regs out⟩

/-- Settles O9: the reset cycle of `step_reset`, its outputs written out (R116, R151). -/
theorem resetWinsOverEverything : Obligations.ResetWinsOverEverything := step_reset

end Sys2Proof.Machine

/-! # Rejections and what the host can observe (60_exceptions.md)

`CommandStatus` says once which statuses can answer a command: ERR_BUSY answers an idle-only command, ERR_BADARG one
that is not well formed. The operand checks of the rules are the well-formedness of the term (`divSelLegal_eq_wfDivSel`
and the two lemmas after it). Of a cycle's outputs, `step_out` gives all and `exec_rsp` a command's response. -/

namespace Sys2Proof.Machine

section OperandChecks

/-- Check 6 of CONFIGURE is the well-formedness of its operand (R74, R135). -/
theorem divSelLegal_eq_wfDivSel (d : BitVec 3) : divSelLegal d = wfDivSel d := by
  rw [Bool.eq_iff_iff, divSelLegal_iff, wfDivSel, decide_eq_true_iff]

/-- Check 6 of SETDEADLINE and SETTRIG is the well-formedness of their operand (R90, R91, R135). -/
theorem countLegal_eq_wfPositive (w : BitVec 16) : countLegal w = wfPositive w := by
  rw [Bool.eq_iff_iff, countLegal_iff, wfPositive, decide_eq_true_iff, ne_eq, ← BitVec.toNat_inj]
  exact Nat.one_le_iff_ne_zero.symm

/-- RDREG has a view exactly at the well-formed indices (R49, R92). -/
theorem view_isSome_eq_wfIndex (s : Registers) (idx : BitVec 5) : (view s idx).isSome = wfIndex idx := by
  by_cases h : idx.toNat ≤ 14
  · rw [wfIndex, decide_eq_true h]
    unfold view
    generalize idx.toNat = n at h
    interval_cases n <;> rfl
  · rw [view_reserved s (by omega), wfIndex, decide_eq_false h]
    rfl

end OperandChecks

section Statuses

variable {s : Registers} {i : Instr}

/-- The status of a command's answer, and what a rejection by check 3 or by check 6 of R135 says of the command. -/
inductive CommandStatus (i : Instr) (e : Effect) : Prop where
  | ok (h : e.response.status = .ok)
  | none (h : e.response.status = .none)
  | busy (h : e.response.status = .errBusy) (hi : idleOnly i = true)
  | fault (h : e.response.status = .errFault)
  | notReady (h : e.response.status = .errNotReady)
  | badArg (h : e.response.status = .errBadArg) (hw : i.wellFormed = false)

/-- The effect behind the busy check of SETDEADLINE and SETTRIG (R90, R91). -/
theorem CommandStatus.of_countCheck {w : BitVec 16} (write : Registers → Registers)
    (hw : i.wellFormed = wfPositive w) : CommandStatus i (ifLegal (countLegal w) (done write)) := by
  rw [countLegal_eq_wfPositive, ← hw]
  cases h : i.wellFormed with
  | true => exact .ok rfl
  | false => exact .badArg rfl h

/-- Every command's answer has one of these statuses, for the reason given. -/
theorem effectOf_status (i : Instr) (s : Registers) : CommandStatus i (effectOf i s) := by
  cases i with
  | nop | rdOvf | rdCnt | convert => exact .ok rfl
  | stop | setEdge | setScale | setMin | setMax => exact ifNotBusy_lift s (.busy rfl rfl) fun _ => .ok rfl
  | setDeadline | setTrig => exact ifNotBusy_lift s (.busy rfl rfl) fun _ => .of_countCheck _ rfl
  | start | begin =>
    exact ifNotBusy_lift s (.busy rfl rfl) fun _ => ifNoFault_lift s (.fault rfl) fun _ =>
      ifReady_lift _ (.notReady rfl) fun _ => .ok rfl
  | configure d =>
    refine ifNotBusy_lift s (.busy rfl rfl) fun _ => ifNoFault_lift s (.fault rfl) fun _ => ?_
    rw [divSelLegal_eq_wfDivSel]
    cases hw : wfDivSel d with
    | true => exact .ok rfl
    | false => exact .badArg rfl hw
  | pollCap =>
    refine ifNotBusy_lift s (.busy rfl rfl) fun _ => ?_
    cases s.capNew with
    | true => exact .ok rfl
    | false => exact .none rfl
  | rdResult =>
    rw [effectOf, rdResultEffect]
    cases s.resValid with
    | true => exact .ok rfl
    | false => exact .none rfl
  | rdReg idx =>
    have hwf := view_isSome_eq_wfIndex s idx
    rw [effectOf, rdRegEffect]
    cases hv : view s idx with
    | some v => exact .ok rfl
    | none => exact .badArg rfl (by rw [Instr.wellFormed, ← hwf, hv]; rfl)

/-- At rest and without the fault the checks before the operand's pass, and an ill-formed operand is refused: four
commands can have one (R123(b)). -/
theorem effectOf_illFormed (hw : i.wellFormed = false) (hb : busy s = false) (hf : s.cfgFault = false) :
    (effectOf i s).response = ⟨.errBadArg, 0, 0⟩ := by
  cases i with
  | configure d =>
    have hillegal : divSelLegal d = false := (divSelLegal_eq_wfDivSel d).trans hw
    rw [effectOf, configureEffect, ifNotBusy_of_resting hb, ifNoFault_of_noFault hf, hillegal]
    rfl
  | setDeadline w =>
    have hzero : countLegal w = false := (countLegal_eq_wfPositive w).trans hw
    rw [effectOf, setDeadlineEffect, ifNotBusy_of_resting hb, hzero]
    rfl
  | setTrig w =>
    have hzero : countLegal w = false := (countLegal_eq_wfPositive w).trans hw
    rw [effectOf, setTrigEffect, ifNotBusy_of_resting hb, hzero]
    rfl
  | rdReg idx =>
    have hreserved : (view s idx).isSome = false := (view_isSome_eq_wfIndex s idx).trans hw
    rw [effectOf, rdRegEffect, Option.isNone_iff_eq_none.1 (Option.isSome_eq_false_iff.1 hreserved)]
    rfl
  | _ => cases hw

/-- The idle-only commands are those whose rule begins with the busy check (R124). -/
theorem effectOf_idleOnly (hi : idleOnly i = true) (s : Registers) : ∃ e, effectOf i s = ifNotBusy s e := by
  cases i with
  | nop | rdOvf | rdCnt | rdResult | convert | rdReg => cases hi
  | _ => exact ⟨_, rfl⟩

end Statuses

section Answers

variable {s t : State} {i : Instr}

/-- The response port shows the answer of the command's effect (R116). -/
theorem exec_rsp (h : exec i s = .next t) : t.out.rsp = responseWord (effectOf i s.regs).response := by
  rw [exec_eq] at h
  rw [← Host.Outcome.next.inj h]
  rfl

/-- The status number on the response port (R60). -/
theorem exec_rsp_status (h : exec i s = .next t) :
    t.out.rsp.toNat / 17179869184 = (statusCode (effectOf i s.regs).response.status).toNat := by
  rw [exec_rsp h]
  exact (responseWordFields _).1

/-- ERR_BUSY, number 4, answers idle-only commands alone. -/
theorem idleOnly_of_rsp_busy (h : exec i s = .next t) (hrsp : t.out.rsp.toNat / 17179869184 = 4) :
    idleOnly i = true := by
  rw [exec_rsp_status h] at hrsp
  cases effectOf_status i s.regs with
  | busy _ hi => exact hi
  | ok hst | none hst | fault hst | notReady hst | badArg hst =>
    rw [hst] at hrsp
    exact absurd hrsp (by decide)

/-- ERR_BADARG, number 3, answers ill-formed commands alone. -/
theorem illFormed_of_rsp_badArg (h : exec i s = .next t) (hrsp : t.out.rsp.toNat / 17179869184 = 3) :
    i.wellFormed = false := by
  rw [exec_rsp_status h] at hrsp
  cases effectOf_status i s.regs with
  | badArg _ hw => exact hw
  | ok hst | none hst | busy hst | fault hst | notReady hst =>
    rw [hst] at hrsp
    exact absurd hrsp (by decide)

end Answers

section Rejections

/-- Settles O26: the idle-only commands stand behind the busy check, and no other is answered ERR_BUSY. -/
theorem idleOnlyCommandsBounce : Obligations.IdleOnlyCommandsBounce := by
  refine fun s i => ⟨fun hb => ⟨fun hi => ?_, fun hi hbounced => ?_⟩, fun hs => by simp only [busy, hs]⟩
  · obtain ⟨e, he⟩ := effectOf_idleOnly hi s.regs
    exact exec_setter_busy he hb
  · have hidle : idleOnly i = true := idleOnly_of_rsp_busy hbounced (responseWordFields ⟨.errBusy, 0, 0⟩).1
    simp [hi] at hidle

/-- Settles O27: ERR_BADARG answers ill-formed commands alone, and all of them where the earlier checks pass. -/
theorem operandCheckIsWellFormedness : Obligations.OperandCheckIsWellFormedness := by
  refine fun s i => ⟨fun hw t h hrsp => ?_, fun hw hb hf => ⟨_, exec_eq i s, ?_⟩⟩
  · simp [illFormed_of_rsp_badArg h hrsp] at hw
  · exact congrArg responseWord (effectOf_illFormed hw hb hf)

end Rejections

section Observation

/-- Settles O51: a valid result stands at rest (R45(e)), where the timer alone runs, and of the commands only RDRESULT
and BEGIN write it. -/
theorem resultStaysUntilFetched : Obligations.ResultStaysUntilFetched := by
  intro s t hinv hv hr hfetch hbegin h
  obtain ⟨e, he, ht⟩ := step_without_reset hr h
  have hrest : busy s.regs = false := Bool.eq_false_iff.2 fun hb => by simp [hinv.busyNoResult hb] at hv
  have hframe := hardwareFrame he hbegin
  rw [ht, resValid_frame he hbegin fun hp => hfetch hp.1, hframe.resKind, hframe.resDist, hframe.raw,
    hardwarePhases_of_resting s.regs hrest]
  exact ⟨hv, rfl, rfl, rfl⟩

/-- No command's rule reads `pre`, `trig_cnt` or `wait_wraps`: its checks, its answer and its writes are made of the
other registers and of its operand (R148). -/
theorem effectOf_hidden (i : Instr) (s : Registers) (p : BitVec 10) (c w : BitVec 16) :
    effectOf i { s with pre := p, trigCnt := c, waitWraps := w } = effectOf i s := by
  cases i <;> rfl

/-- Settles O53: the response is that of the command's effect (`exec_rsp`), which does not read the three. -/
theorem hiddenRegistersUnreadable : Obligations.HiddenRegistersUnreadable := by
  intro s1 s2 t1 t2 p c w i hregs h1 h2
  have heffect : effectOf i s2.regs = effectOf i s1.regs :=
    (congrArg (effectOf i) hregs).trans (effectOf_hidden i s1.regs p c w)
  rw [exec_rsp h1, exec_rsp h2, heffect]

/-- Without reset the cycle has an effect exactly where `cmd_valid` = 1 (R69). -/
theorem portEffect_isSome (s : Registers) {inp : Inputs} (hr : inp.rst = false) :
    (portEffect s (presented inp)).isSome = inp.cmdValid := by
  cases hv : inp.cmdValid with
  | false => simp [presented, hr, hv, portEffect]
  | true =>
    simp only [presented, hr, hv]
    cases decode inp.cmd <;> rfl

/-- `rsp` is 0 in a cycle without an effect (R116). -/
theorem rspPort_of_isSome_false {e : Option Effect} (h : e.isSome = false) : rspPort e = 0 := by
  cases e with
  | none => rfl
  | some _ => cases h

/-- Settles O12: `step_out` gives the outputs of both kinds of cycle, with reset and without. -/
theorem outputsOfEveryCycle : Obligations.OutputsOfEveryCycle := by
  intro s t h
  rw [step_out h]
  cases hr : s.inputs.rst with
  | true => exact ⟨rfl, rfl, rfl, rfl, rfl, fun _ => rfl⟩
  | false => exact ⟨rfl, rfl, rfl, rfl, portEffect_isSome s.regs hr, rspPort_of_isSome_false⟩

end Observation
end Sys2Proof.Machine

/-! # The length of a measurement and of its trigger pulse (R158, R169, R173)

Both are countdowns from the accepted BEGIN on: `LastsUntil` says what a run shows until they are over. What is left of
a measurement is bounded by `remainingCycles`, which falls (`remainingCyclesFall`); what is left of the trigger pulse is
exactly `pulseCyclesLeft`, which falls by 1 in every cycle (`pulse_step`). -/

namespace Sys2Proof.Machine

section Countdowns

/-- `P` holds in this state and the next `k - 1` of its run, and `Q` holds in the state after them. -/
def LastsUntil (P Q : State → Prop) (k : Nat) (s : State) : Prop :=
  (∀ j < k, ∃ u, Host.Core.run Sys2Proof.core j s = .next u ∧ P u) ∧
    ∃ t, Host.Core.run Sys2Proof.core k s = .next t ∧ Q t

variable {P Q : State → Prop} {k : Nat} {s t : State}

theorem LastsUntil.now (h : Q s) : LastsUntil P Q 0 s := ⟨fun _ hj => absurd hj (Nat.not_lt_zero _), s, rfl, h⟩

theorem LastsUntil.cons (hp : P s) (hs : step s = .next t) (h : LastsUntil P Q k t) : LastsUntil P Q (k + 1) s := by
  obtain ⟨hbefore, u, hu, hq⟩ := h
  refine ⟨fun j hj => ?_, u, (run_succ k hs).trans hu, hq⟩
  cases j with
  | zero => exact ⟨s, rfl, hp⟩
  | succ j =>
    obtain ⟨v, hv, hpv⟩ := hbefore j (by omega)
    exact ⟨v, (run_succ j hs).trans hv, hpv⟩

end Countdowns

section Begin

/-- What an accepted BEGIN leaves: a trigger pulse with no tick of it counted, and the control registers as they were
(R82). -/
structure MeasurementBegun (s u : Registers) : Prop extends SameControl s u where
  inv : u.Inv
  state : u.state = .triggering
  trigCnt : u.trigCnt.toNat = 0

theorem autonomous_sameControl (s : Registers) (echoIn : Bool) : SameControl s (autonomous s echoIn) :=
  (hardwarePhases_sameControl s).of_captureOp

theorem begin_step {s : State} (hs : s.regs.Inv) (hb : BeginAccepted s) :
    ∃ u, step s = .next u ∧ MeasurementBegun s.regs u.regs := by
  obtain ⟨hpresents, hrest, hfault, hconf, hrun⟩ := hb
  obtain ⟨_, _, _, haccept⟩ := beginRule.2 s
  have hstep : step s = exec .begin s := by rw [step, show presented s.inputs = _ from hpresents]
  have hnext := hstep.trans (haccept hrest hfault hconf hrun)
  exact ⟨_, hnext, { autonomous_sameControl s.regs s.inputs.echoIn with
    inv := stepKeepsInvariants s _ hs hnext
    state := rfl
    trigCnt := rfl }⟩

theorem MeasurementBegun.divider {s u : Registers} {d : Nat} (hu : MeasurementBegun s u)
    (hd : divCycles s.divSel = some d) : cyclesPerTick u = d ∧ u.pre.toNat < d := by
  obtain ⟨c, hc, hper, hp⟩ := hu.inv.divider (by simp [busy, hu.state])
  obtain rfl : d = c := Option.some.inj (by rw [← hd, ← hc, hu.divSel])
  exact ⟨hper, hp⟩

end Begin

section MeasurementLength

/-- The measurement runs and has no result yet. -/
def Measuring (s : State) : Prop := busy s.regs = true ∧ s.regs.resValid = false

/-- A measurement has ended with a result. -/
def Measured (s : State) : Prop := s.regs.resValid = true ∧ busy s.regs = false

theorem remainingCycles_pos {s : Registers} (hb : busy s = true) : 0 < remainingCycles s := by
  cases hst : s.state with
  | idle => simp [busy, hst] at hb
  | timedOut => simp [busy, hst] at hb
  | _ => simp [remainingCycles, hst]

/-- A running measurement ends within any bound on what is left of it, by induction on the bound. -/
theorem measuring_lastsUntil_measured (n : Nat) : ∀ s : State, s.regs.Inv → busy s.regs = true →
    remainingCycles s.regs ≤ n → NoReset n s → ∃ k ≤ n, LastsUntil Measuring Measured k s := by
  induction n with
  | zero =>
    intro s _ hb hle
    have hpos := remainingCycles_pos hb
    omega
  | succ n ih =>
    intro s hs hb hle hno
    obtain ⟨t, ht, hfall⟩ := remainingCyclesFall s hs hb (hno 0 (by omega) s rfl)
    have hinv := stepKeepsInvariants s t hs ht
    have hmeasuring : Measuring s := ⟨hb, hs.busyNoResult hb⟩
    rcases hfall with hv | ⟨hbt, hlt⟩
    · have hrest : busy t.regs = false := Bool.eq_false_iff.2 fun hbt => by simp [hinv.busyNoResult hbt] at hv
      exact ⟨1, by omega, .cons hmeasuring ht (.now ⟨hv, hrest⟩)⟩
    · obtain ⟨k, hk, hlasts⟩ := ih t hinv hbt (by omega) (noReset_succ hno ht).2
      exact ⟨k + 1, by omega, hlasts.cons hmeasuring ht⟩

/-- All of a measurement is left after BEGIN, but for the prescaler phase it finds (R169). -/
theorem MeasurementBegun.remainingCycles_le {s u : Registers} {d : Nat} (hu : MeasurementBegun s u)
    (hd : divCycles s.divSel = some d) :
    remainingCycles u ≤ (s.trigTicks.toNat + 2 * s.deadline.toNat * 65536) * d + 1 := by
  simp only [remainingCycles, remainingTicks, hu.state, (hu.divider hd).1, hu.trigCnt, hu.trigTicks, hu.deadline,
    Config.timerRange, Nat.sub_zero]
  omega

/-- Settles O55: from the cycle after the BEGIN on, what is left of the measurement falls to its end. -/
theorem everyMeasurementEnds : Obligations.EveryMeasurementEnds := by
  intro s d hs hb hd hno
  obtain ⟨u, hu, hbegun⟩ := begin_step hs hb
  obtain ⟨k, hk, hbefore, t, ht, hvalid, hrest⟩ := measuring_lastsUntil_measured _ u hbegun.inv
    (by simp [busy, hbegun.state]) (hbegun.remainingCycles_le hd) (noReset_succ hno hu).2
  refine ⟨k + 1, t, by omega, by omega, fun j hj hlt => ?_, (run_succ k hu).trans ht, hvalid, hrest⟩
  obtain ⟨i, rfl⟩ : ∃ i, j = i + 1 := ⟨j - 1, by omega⟩
  rw [run_succ i hu]
  exact hbefore i (by omega)

end MeasurementLength

section TriggerPulse

/-- While busy the prescaler counts the cycles of the tick: it is at the last of them and starts again, or advances
(R95). -/
theorem Registers.Inv.prescaler_step {s : Registers} (hs : s.Inv) (hb : busy s = true) :
    (tick s = true ∧ s.pre.toNat + 1 = cyclesPerTick s ∧ (hardwarePhases s).pre.toNat = 0) ∨
      (tick s = false ∧ s.pre.toNat + 1 < cyclesPerTick s ∧ (hardwarePhases s).pre.toNat = s.pre.toNat + 1) := by
  obtain ⟨d, hd, hper, hp⟩ := hs.divider hb
  have hrun := (hs.busyRuns hb).1
  have hle := (divCycles_bounds hd).2
  have htick := tick_of_divCycles s hd
  rw [hper, hardwarePhases_pre, if_pos hrun]
  cases ht : tick s with
  | true =>
    have hlast : s.pre.toNat = d - 1 := by simpa [ht, hrun] using htick
    exact .inl ⟨rfl, by omega, rfl⟩
  | false =>
    have hnot : s.pre.toNat ≠ d - 1 := by simpa [ht, hrun] using htick
    exact .inr ⟨rfl, by omega, preAdvanced_toNat (by omega)⟩

/-- The cycles left of a trigger pulse: those of the ticks still to count, less the prescaler phase (R173). -/
def pulseCyclesLeft (r : Registers) : Nat :=
  (r.trigTicks.toNat - r.trigCnt.toNat) * cyclesPerTick r - r.pre.toNat

/-- Said with the `n` ticks to count after the one in progress. -/
theorem pulseCyclesLeft_eq {r : Registers} {n : Nat} (h : r.trigTicks.toNat = r.trigCnt.toNat + n + 1) :
    pulseCyclesLeft r = n * cyclesPerTick r + cyclesPerTick r - r.pre.toNat := by
  have hticks : r.trigTicks.toNat - r.trigCnt.toNat = n + 1 := by omega
  rw [pulseCyclesLeft, hticks, Nat.succ_mul]

theorem pulseCyclesLeft_pos {r : Registers} (hr : r.Inv) (hst : r.state = .triggering) : 0 < pulseCyclesLeft r := by
  obtain ⟨d, _, hper, hp⟩ := hr.divider (by simp [busy, hst])
  obtain ⟨n, hn⟩ := Nat.exists_eq_add_of_lt (hr.trigCountBelow hst)
  rw [pulseCyclesLeft_eq hn, hper]
  omega

/-- The trigger output is 1 and the pulse is timed. -/
def PulseOn (s : State) : Prop := s.regs.trig = true ∧ s.regs.state = .triggering

/-- The pulse has ended and the rising edge is awaited. -/
def PulseOver (s : State) : Prop := s.regs.trig = false ∧ s.regs.state = .awaitingRisingEdge

/-- A cycle of the trigger pulse is its last, or takes 1 from those left: without a tick the prescaler phase advances,
and a tick trades the whole phase for one tick fewer (R98). -/
theorem pulse_step {s : State} (hs : s.regs.Inv) (hst : s.regs.state = .triggering) (hr : s.inputs.rst = false) :
    ∃ t, step s = .next t ∧
      ((pulseCyclesLeft s.regs = 1 ∧ PulseOver t) ∨
        (t.regs.state = .triggering ∧ pulseCyclesLeft s.regs = pulseCyclesLeft t.regs + 1)) := by
  have hb : busy s.regs = true := by simp [busy, hst]
  obtain ⟨t, ht, hholds, hcounts, hends⟩ := trigStepRule s hr hst
  obtain ⟨v, hv, hc⟩ := busy_step hr hb
  obtain rfl : t = v := Host.Outcome.next.inj (ht.symm.trans hv)
  have hper : cyclesPerTick t.regs = cyclesPerTick s.regs := by rw [cyclesPerTick, hc.divSel, ← cyclesPerTick]
  obtain ⟨n, hn⟩ := Nat.exists_eq_add_of_lt (hs.trigCountBelow hst)
  refine ⟨t, ht, ?_⟩
  rw [pulseCyclesLeft_eq hn]
  rcases hs.prescaler_step hb with ⟨hk, hlast, hpre⟩ | ⟨hk, hlt, hpre⟩ <;> rw [← hc.pre] at hpre
  · cases n with
    | zero =>
      obtain ⟨hstate, htrig, _, _⟩ := hends hk (by omega)
      exact .inl ⟨by omega, htrig, hstate⟩
    | succ n =>
      obtain ⟨hstate, _, hcount, _⟩ := hcounts hk (by omega)
      have hn' : t.regs.trigTicks.toNat = t.regs.trigCnt.toNat + n + 1 := by rw [hc.trigTicks, hcount]; omega
      rw [pulseCyclesLeft_eq hn', hper, hpre, Nat.succ_mul]
      exact .inr ⟨hstate, by omega⟩
  · obtain ⟨hstate, _, hcount, _⟩ := hholds hk
    have hn' : t.regs.trigTicks.toNat = t.regs.trigCnt.toNat + n + 1 := by rw [hc.trigTicks, hcount, hn]
    rw [pulseCyclesLeft_eq hn', hper, hpre]
    exact .inr ⟨hstate, by omega⟩

/-- The trigger pulse lasts exactly the cycles left of it, by induction on them. -/
theorem pulseOn_lastsUntil_over (n : Nat) : ∀ s : State, s.regs.Inv → s.regs.state = .triggering →
    pulseCyclesLeft s.regs = n → NoReset n s → LastsUntil PulseOn PulseOver n s := by
  induction n with
  | zero =>
    intro s hs hst hn
    exact absurd hn (pulseCyclesLeft_pos hs hst).ne'
  | succ n ih =>
    intro s hs hst hn hno
    obtain ⟨t, ht, hcase⟩ := pulse_step hs hst (hno 0 (by omega) s rfl)
    have hon : PulseOn s := ⟨hs.trigIff.2 hst, hst⟩
    rcases hcase with ⟨hone, hover⟩ | ⟨hstate, hleft⟩
    · obtain rfl : n = 0 := by omega
      exact .cons hon ht (.now hover)
    · exact (ih t (stepKeepsInvariants s t hs ht) hstate (by omega) (noReset_succ hno ht).2).cons hon ht

/-- Settles O56: the pulse has all its ticks left after BEGIN, the first of them shortened by the prescaler phase. -/
theorem triggerPulseLength : Obligations.TriggerPulseLength := by
  intro s u d hs hb hd hu hno
  obtain ⟨v, hv, hbegun⟩ := begin_step hs hb
  obtain rfl : u = v := Host.Outcome.next.inj (hu.symm.trans hv)
  obtain ⟨n, hn⟩ := Nat.exists_eq_add_of_le' hs.trigTicksPositive
  obtain ⟨hper, hpre⟩ := hbegun.divider hd
  have hleft : pulseCyclesLeft u.regs = n * d + (d - u.regs.pre.toNat) := by
    have hticks : u.regs.trigTicks.toNat = u.regs.trigCnt.toNat + n + 1 := by
      rw [hbegun.trigTicks, hbegun.trigCnt, hn, Nat.zero_add]
    rw [pulseCyclesLeft_eq hticks, hper, Nat.add_sub_assoc hpre.le]
  rw [hn, Nat.add_sub_cancel] at hno ⊢
  rw [Nat.succ_mul]
  exact ⟨by omega, by omega, pulseOn_lastsUntil_over _ u hbegun.inv hbegun.state hleft hno⟩

end TriggerPulse
end Sys2Proof.Machine
